-- ==== Sys2Proof/Config.lean ====
section
/-! DEFINITION. The static parameters of one instance of the core (00_scope.md rules R12, R13).

The parameters are plain data that `State` carries in its field `cfg`, so that every statement about
"every state" is a statement about every instance; no step and no host move writes them
(notes/assumptions/1.md, 2.md). No step reads `LBITS`, `DBITS` and `CLBITS`: a table is its length array, and the
widths are unobservable (41_huffman.md rules R186, R192; notes/assumptions/17.md). -/

namespace Sys2Proof

/-- The parameters the spec leaves open (00_scope.md rule R12; 93_implementation_defined.md U6 to U8). -/
structure Config where
  /-- `REJECT_INCOMPLETE`: a non-degenerate incomplete dynamic code is rejected when built (R13, R188). -/
  rejectIncomplete : Bool
  /-- `SRC_LEN_W`: the width of the source-length and source-address registers. -/
  srcLenW : Nat
  /-- `OUT_COUNT_W`: the width of the output byte counter. -/
  outCountW : Nat
  /-- `LBITS`: the first-level lookup width of the literal/length table (R12, R192). -/
  lbits : Nat
  /-- `DBITS`: the first-level lookup width of the distance table. -/
  dbits : Nat
  /-- `CLBITS`: the first-level lookup width of the code-length table. -/
  clbits : Nat
  deriving DecidableEq, Repr

/-- The lookup widths R12 allows: 1..15, and 1..7 for `CLBITS`. -/
def Config.legal (c : Config) : Prop :=
  (1 ≤ c.lbits ∧ c.lbits ≤ 15) ∧ (1 ≤ c.dbits ∧ c.dbits ≤ 15) ∧ 1 ≤ c.clbits ∧ c.clbits ≤ 7

/-- The defaults of 00_scope.md rule R12; for the lookup widths it gives none, and these are the largest it allows
(notes/assumptions/17.md). -/
def Config.default : Config :=
  { rejectIncomplete := false, srcLenW := 32, outCountW := 32, lbits := 15, dbits := 15, clbits := 7 }

end Sys2Proof
end

