-- ==== Sys2Proof/Word.lean ====
section
/-! DEFINITION. The byte of the core's memories and ports (20_memory.md rule R75). -/

namespace Sys2Proof

/-- One byte: the unit of `SRC`, `WIN` and the output port (20_memory.md rules R62, R75). -/
abbrev Byte := BitVec 8

end Sys2Proof
end

