-- ==== Sys2Proof/Syntax.lean ====
section
/-! DEFINITION. The instructions of the core: the syntax elements of the compressed stream, one constructor
per row of spec/opcode_table.json (00_scope.md rule R3, 30_encoding.md rule R117).

Operands are those of the mnemonics of rule R117: `f` = BFINAL, `b` a byte, `n` a code length, `r` a repeat
count, `x` the value of the length extra bits, `y` the value of the distance extra bits. -/

namespace Sys2Proof

/-- A syntax element with its operands. -/
inductive Instr where
  /-- `HDR.STORED f` (R222): block header, BTYPE = 0. -/
  | hdrStored (f : Bool)
  /-- `HDR.FIXED f` (R228): block header, BTYPE = 1. -/
  | hdrFixed (f : Bool)
  /-- `HDR.DYNAMIC f` (R230): block header, BTYPE = 2. -/
  | hdrDynamic (f : Bool)
  /-- `HDR.RESERVED f` (R223): block header, BTYPE = 3. -/
  | hdrReserved (f : Bool)
  /-- `STORED.ALIGN` (R224): the 0..7 bits up to the byte boundary, ignored whatever their values. -/
  | storedAlign
  /-- `STORED.LEN` (R225). -/
  | storedLen (len : BitVec 16)
  /-- `STORED.NLEN` (R226). -/
  | storedNlen (nlen : BitVec 16)
  /-- `STORED.BYTE` (R227): one raw byte. -/
  | storedByte (b : Byte)
  /-- `DYN.HDR` (R231): HLIT, HDIST, HCLEN. -/
  | dynHdr (hlit : BitVec 5) (hdist : BitVec 5) (hclen : BitVec 4)
  /-- `DYN.CLLEN` (R233): one code-length-code length. -/
  | dynCllen (v : BitVec 3)
  /-- `CL_LEN n` (R236). -/
  | clLen (n : BitVec 4)
  /-- `CL_REP16 r` (R237): repeat the previous length r = 3..6 times. -/
  | clRep16 (r : Nat)
  /-- `CL_ZERO17 r` (R238): r = 3..10 zero lengths. -/
  | clZero17 (r : Nat)
  /-- `CL_ZERO18 r` (R239): r = 11..138 zero lengths. -/
  | clZero18 (r : Nat)
  /-- `LIT b` (R276). -/
  | lit (b : Byte)
  /-- `EOB` (R277), symbol 256. -/
  | eob
  /-- `LEN_257` (R280). -/
  | len257
  /-- `LEN_258` (R281). -/
  | len258
  /-- `LEN_259` (R282). -/
  | len259
  /-- `LEN_260` (R283). -/
  | len260
  /-- `LEN_261` (R284). -/
  | len261
  /-- `LEN_262` (R285). -/
  | len262
  /-- `LEN_263` (R286). -/
  | len263
  /-- `LEN_264` (R287). -/
  | len264
  /-- `LEN_265 x` (R288). -/
  | len265 (x : BitVec 1)
  /-- `LEN_266 x` (R289). -/
  | len266 (x : BitVec 1)
  /-- `LEN_267 x` (R290). -/
  | len267 (x : BitVec 1)
  /-- `LEN_268 x` (R291). -/
  | len268 (x : BitVec 1)
  /-- `LEN_269 x` (R292). -/
  | len269 (x : BitVec 2)
  /-- `LEN_270 x` (R293). -/
  | len270 (x : BitVec 2)
  /-- `LEN_271 x` (R294). -/
  | len271 (x : BitVec 2)
  /-- `LEN_272 x` (R295). -/
  | len272 (x : BitVec 2)
  /-- `LEN_273 x` (R296). -/
  | len273 (x : BitVec 3)
  /-- `LEN_274 x` (R297). -/
  | len274 (x : BitVec 3)
  /-- `LEN_275 x` (R298). -/
  | len275 (x : BitVec 3)
  /-- `LEN_276 x` (R299). -/
  | len276 (x : BitVec 3)
  /-- `LEN_277 x` (R300). -/
  | len277 (x : BitVec 4)
  /-- `LEN_278 x` (R301). -/
  | len278 (x : BitVec 4)
  /-- `LEN_279 x` (R302). -/
  | len279 (x : BitVec 4)
  /-- `LEN_280 x` (R303). -/
  | len280 (x : BitVec 4)
  /-- `LEN_281 x` (R304). -/
  | len281 (x : BitVec 5)
  /-- `LEN_282 x` (R305). -/
  | len282 (x : BitVec 5)
  /-- `LEN_283 x` (R306). -/
  | len283 (x : BitVec 5)
  /-- `LEN_284 x` (R307). -/
  | len284 (x : BitVec 5)
  /-- `LEN_285` (R308). -/
  | len285
  /-- Literal/length symbol 286 (R278): a fixed code without a meaning. -/
  | litlen286
  /-- Literal/length symbol 287 (R278): a fixed code without a meaning. -/
  | litlen287
  /-- `DIST_0` (R310). -/
  | dist0
  /-- `DIST_1` (R311). -/
  | dist1
  /-- `DIST_2` (R312). -/
  | dist2
  /-- `DIST_3` (R313). -/
  | dist3
  /-- `DIST_4 y` (R314). -/
  | dist4 (y : BitVec 1)
  /-- `DIST_5 y` (R315). -/
  | dist5 (y : BitVec 1)
  /-- `DIST_6 y` (R316). -/
  | dist6 (y : BitVec 2)
  /-- `DIST_7 y` (R317). -/
  | dist7 (y : BitVec 2)
  /-- `DIST_8 y` (R318). -/
  | dist8 (y : BitVec 3)
  /-- `DIST_9 y` (R319). -/
  | dist9 (y : BitVec 3)
  /-- `DIST_10 y` (R320). -/
  | dist10 (y : BitVec 4)
  /-- `DIST_11 y` (R321). -/
  | dist11 (y : BitVec 4)
  /-- `DIST_12 y` (R322). -/
  | dist12 (y : BitVec 5)
  /-- `DIST_13 y` (R323). -/
  | dist13 (y : BitVec 5)
  /-- `DIST_14 y` (R324). -/
  | dist14 (y : BitVec 6)
  /-- `DIST_15 y` (R325). -/
  | dist15 (y : BitVec 6)
  /-- `DIST_16 y` (R326). -/
  | dist16 (y : BitVec 7)
  /-- `DIST_17 y` (R327). -/
  | dist17 (y : BitVec 7)
  /-- `DIST_18 y` (R328). -/
  | dist18 (y : BitVec 8)
  /-- `DIST_19 y` (R329). -/
  | dist19 (y : BitVec 8)
  /-- `DIST_20 y` (R330). -/
  | dist20 (y : BitVec 9)
  /-- `DIST_21 y` (R331). -/
  | dist21 (y : BitVec 9)
  /-- `DIST_22 y` (R332). -/
  | dist22 (y : BitVec 10)
  /-- `DIST_23 y` (R333). -/
  | dist23 (y : BitVec 10)
  /-- `DIST_24 y` (R334). -/
  | dist24 (y : BitVec 11)
  /-- `DIST_25 y` (R335). -/
  | dist25 (y : BitVec 11)
  /-- `DIST_26 y` (R336). -/
  | dist26 (y : BitVec 12)
  /-- `DIST_27 y` (R337). -/
  | dist27 (y : BitVec 12)
  /-- `DIST_28 y` (R338). -/
  | dist28 (y : BitVec 13)
  /-- `DIST_29 y` (R339). -/
  | dist29 (y : BitVec 13)
  /-- Distance symbol 30 (R340): never given a code. -/
  | distsym30
  /-- Distance symbol 31 (R340): never given a code. -/
  | distsym31
  deriving DecidableEq, Repr

end Sys2Proof
end

