-- ==== Sys2Proof/WellFormed.lean ====
section
/-! DEFINITION. Well-formed instructions: the operand ranges that the types of `Instr` do not say
(30_encoding.md rule R108: the repeat counts). -/

namespace Sys2Proof

/-- The repeat counts are those the extra bits can spell: 3..6, 3..10 and 11..138 (R108). -/
def Instr.wellFormed : Instr → Bool
  | .clRep16 r => decide (3 ≤ r) && decide (r ≤ 6)
  | .clZero17 r => decide (3 ≤ r) && decide (r ≤ 10)
  | .clZero18 r => decide (11 ≤ r) && decide (r ≤ 138)
  | _ => true

end Sys2Proof
end

