-- ==== Sys2Proof/Decode.lean ====
section
/-! DEFINITION. Decoding and encoding of the stream's elements (30_encoding.md; 41_huffman.md rules R180 to R190).

The stream is a list of bits, the first stream bit first (20_memory.md rule R70). Which format the next
bits have is no part of the bits: the FSM state and the tables say it (30_encoding.md rules R116, R117),
so `decode` takes a `Ctx`. -/

namespace Sys2Proof

/-! ### Fields (20_memory.md rule R71) -/

/-- The value of a field whose first bit is bit 0. -/
def bitsVal : List Bool → Nat
  | [] => 0
  | b :: bs => b.toNat + 2 * bitsVal bs

/-- The `n` bits of the field of value `v`, bit 0 first. -/
def fieldBits : Nat → Nat → List Bool
  | 0, _ => []
  | n + 1, v => (v % 2 == 1) :: fieldBits n (v / 2)

/-- A field of `n` bits and the stream after it; `none` if the stream is shorter. -/
def takeField (n : Nat) (bits : List Bool) : Option (Nat × List Bool) :=
  if n ≤ bits.length then some (bitsVal (bits.take n), bits.drop n) else none

/-! ### Canonical Huffman codes -/

/-- `Code(L, s)` of length `l` as stream bits: most significant bit first (20_memory.md rule R72). -/
def codeBits (l c : Nat) : List Bool := (fieldBits l c).reverse

/-- `next[l]` before any code of length `l` is given out (41_huffman.md rule R182); `count[l]` is `L.count l` (R181). -/
def firstCode (L : List Nat) : Nat → Nat
  | 0 => 0
  | 1 => 0
  | l + 2 => 2 * (firstCode L (l + 1) + L.count (l + 1))

/-- The code length of symbol `s`; 0 for an unused symbol and past the array's end. -/
def codeLen (L : List Nat) (s : Nat) : Nat := L.getD s 0

/-- `Code(L, s)` (R182): the first code of the length, plus one for every earlier symbol of that length. -/
def codeOf (L : List Nat) (s : Nat) : Nat :=
  firstCode L (codeLen L s) + (L.take s).count (codeLen L s)

/-- The symbol of length `l` whose code is `c`, where the first symbol of length `l` in the list has code `next`
and the list starts at symbol `s` (the assignment loop of R182 for one length). -/
def symbolAt : List Nat → (l next c s : Nat) → Option Nat
  | [], _, _, _, _ => none
  | x :: xs, l, next, c, s =>
    if x = l then
      if next = c then some s else symbolAt xs l (next + 1) c (s + 1)
    else symbolAt xs l next c (s + 1)

/-- The loop of `Decode` (R189): `l` bits read so far have value `c`, and `next` is `firstCode L (l + 1)`. -/
def matchCode (L : List Nat) : List Bool → (l c next : Nat) → Option (Nat × Nat)
  | [], _, _, _ => none
  | b :: bs, l, c, next =>
    match symbolAt L (l + 1) next (2 * c + b.toNat) 0 with
    | some s => some (s, l + 1)
    | none => matchCode L bs (l + 1) (2 * c + b.toNat) (2 * (next + L.count (l + 1)))

/-- `Decode(L, MAXB)` on the next stream bits: the symbol and its code's length; `none` is rule R190. -/
def decodeSym (L : List Nat) (maxb : Nat) (bits : List Bool) : Option (Nat × Nat) :=
  matchCode L (bits.take maxb) 0 0 0

/-- `FIXED_LIT_LEN` (10_state.md rule R59). -/
def fixedLitLen : List Nat :=
  List.replicate 144 8 ++ List.replicate 112 9 ++ List.replicate 24 7 ++ List.replicate 8 8

/-- `FIXED_DIST_LEN` (10_state.md rule R59). -/
def fixedDistLen : List Nat := List.replicate 30 5 ++ List.replicate 2 0

/-! ### From a symbol to its element (30_encoding.md rules R105, R106, R110 to R112) -/

/-- A field of `n` bits as the operand of an element. -/
def withField (n : Nat) (mk : BitVec n → Instr) (bits : List Bool) : Option (Instr × List Bool) :=
  (takeField n bits).map fun p => (mk (BitVec.ofNat n p.1), p.2)

/-- A repeat count, `base` plus a field of `n` bits (R108). -/
def withRepeat (n base : Nat) (mk : Nat → Instr) (bits : List Bool) : Option (Instr × List Bool) :=
  (takeField n bits).map fun p => (mk (base + p.1), p.2)

/-- The element of code-length symbol `s` (R112) whose extra bits come next. -/
def clElement (s : Nat) (bits : List Bool) : Option (Instr × List Bool) :=
  match s with
  | 16 => withRepeat 2 3 .clRep16 bits
  | 17 => withRepeat 3 3 .clZero17 bits
  | 18 => withRepeat 7 11 .clZero18 bits
  | s => if s < 16 then some (.clLen (BitVec.ofNat 4 s), bits) else none

/-- The element of literal/length symbol `s` (R110) whose extra bits come next. -/
def litLenElement (s : Nat) (bits : List Bool) : Option (Instr × List Bool) :=
  match s with
  | 256 => some (.eob, bits)
  | 257 => some (.len257, bits)
  | 258 => some (.len258, bits)
  | 259 => some (.len259, bits)
  | 260 => some (.len260, bits)
  | 261 => some (.len261, bits)
  | 262 => some (.len262, bits)
  | 263 => some (.len263, bits)
  | 264 => some (.len264, bits)
  | 265 => withField 1 .len265 bits
  | 266 => withField 1 .len266 bits
  | 267 => withField 1 .len267 bits
  | 268 => withField 1 .len268 bits
  | 269 => withField 2 .len269 bits
  | 270 => withField 2 .len270 bits
  | 271 => withField 2 .len271 bits
  | 272 => withField 2 .len272 bits
  | 273 => withField 3 .len273 bits
  | 274 => withField 3 .len274 bits
  | 275 => withField 3 .len275 bits
  | 276 => withField 3 .len276 bits
  | 277 => withField 4 .len277 bits
  | 278 => withField 4 .len278 bits
  | 279 => withField 4 .len279 bits
  | 280 => withField 4 .len280 bits
  | 281 => withField 5 .len281 bits
  | 282 => withField 5 .len282 bits
  | 283 => withField 5 .len283 bits
  | 284 => withField 5 .len284 bits
  | 285 => some (.len285, bits)
  | 286 => some (.litlen286, bits)
  | 287 => some (.litlen287, bits)
  | s => if s < 256 then some (.lit (BitVec.ofNat 8 s), bits) else none

/-- The element of distance symbol `t` (R111) whose extra bits come next. -/
def distElement (t : Nat) (bits : List Bool) : Option (Instr × List Bool) :=
  match t with
  | 0 => some (.dist0, bits)
  | 1 => some (.dist1, bits)
  | 2 => some (.dist2, bits)
  | 3 => some (.dist3, bits)
  | 4 => withField 1 .dist4 bits
  | 5 => withField 1 .dist5 bits
  | 6 => withField 2 .dist6 bits
  | 7 => withField 2 .dist7 bits
  | 8 => withField 3 .dist8 bits
  | 9 => withField 3 .dist9 bits
  | 10 => withField 4 .dist10 bits
  | 11 => withField 4 .dist11 bits
  | 12 => withField 5 .dist12 bits
  | 13 => withField 5 .dist13 bits
  | 14 => withField 6 .dist14 bits
  | 15 => withField 6 .dist15 bits
  | 16 => withField 7 .dist16 bits
  | 17 => withField 7 .dist17 bits
  | 18 => withField 8 .dist18 bits
  | 19 => withField 8 .dist19 bits
  | 20 => withField 9 .dist20 bits
  | 21 => withField 9 .dist21 bits
  | 22 => withField 10 .dist22 bits
  | 23 => withField 10 .dist23 bits
  | 24 => withField 11 .dist24 bits
  | 25 => withField 11 .dist25 bits
  | 26 => withField 12 .dist26 bits
  | 27 => withField 12 .dist27 bits
  | 28 => withField 13 .dist28 bits
  | 29 => withField 13 .dist29 bits
  | 30 => some (.distsym30, bits)
  | 31 => some (.distsym31, bits)
  | _ => none

/-! ### The decoder -/

/-- What the FSM state and the tables say of the next bits (10_state.md rule R30, 30_encoding.md rule R117). -/
inductive Ctx where
  /-- HDR: format H. -/
  | hdr
  /-- STORED_ALIGN, with the number of bits left in the current byte. -/
  | storedAlign (left : Nat)
  /-- STORED_LEN. -/
  | storedLen
  /-- STORED_NLEN. -/
  | storedNlen
  /-- STORED_COPY. -/
  | storedByte
  /-- DYN_HDR. -/
  | dynHdr
  /-- DYN_CLLEN. -/
  | dynCllen
  /-- DYN_LENS, with the code-length table. -/
  | clSym (L : List Nat)
  /-- SYM, with the selected literal/length table. -/
  | litLenSym (L : List Nat)
  /-- LEN_EXTRA, with `LSYM`: the code is behind the cursor, the extra bits come next. -/
  | lenExtra (s : Nat)
  /-- DIST_SYM, with the selected distance table. -/
  | distSym (L : List Nat)
  /-- DIST_EXTRA, with `DSYM`: the code is behind the cursor, the extra bits come next. -/
  | distExtra (t : Nat)
  deriving DecidableEq, Repr

/-- Why the next bits are no element. -/
inductive DecodeError where
  /-- No prefix of the next MAXB bits is a code of the table (41_huffman.md rule R190). -/
  | unassignedCode
  /-- The list of bits ends inside the element; the core's stream never ends (40_bit_reader.md rule R159). -/
  | outOfBits
  /-- The symbol is none of the alphabet's (`LSYM` or `DSYM` out of range, or a table longer than the alphabet). -/
  | noSuchSymbol
  deriving DecidableEq, Repr

/-- A found element, or the error given. -/
def orError (e : DecodeError) : Option (Instr × List Bool) → Except DecodeError (Instr × List Bool)
  | some p => .ok p
  | none => .error e

/-- A Huffman-coded element: the symbol, then what the alphabet says of the bits after its code (R116). -/
def decodeCoded (L : List Nat) (maxb : Nat) (element : Nat → List Bool → Option (Instr × List Bool))
    (bits : List Bool) : Except DecodeError (Instr × List Bool) :=
  match decodeSym L maxb bits with
  | none => .error .unassignedCode
  | some (s, l) => orError .noSuchSymbol (element s (bits.drop l))

/-- Format H (30_encoding.md rules R101, R109): `h[0]` is BFINAL, `h[2:1]` BTYPE. -/
def headerOf (h : Nat) : Instr :=
  match h / 2 with
  | 0 => .hdrStored (h % 2 == 1)
  | 1 => .hdrFixed (h % 2 == 1)
  | 2 => .hdrDynamic (h % 2 == 1)
  | _ => .hdrReserved (h % 2 == 1)

/-- Format D's first 14 bits (30_encoding.md rule R104): HLIT, HDIST, HCLEN, each LSB-first. -/
def dynHdrOf (v : Nat) : Instr :=
  .dynHdr (BitVec.ofNat 5 v) (BitVec.ofNat 5 (v / 32)) (BitVec.ofNat 4 (v / 1024))

/-- The element that stands at the head of `bits`, and the bits after it. -/
def decode (c : Ctx) (bits : List Bool) : Except DecodeError (Instr × List Bool) :=
  match c with
  | .hdr => orError .outOfBits ((takeField 3 bits).map fun p => (headerOf p.1, p.2))
  | .storedAlign left => orError .outOfBits ((takeField left bits).map fun p => (.storedAlign, p.2))
  | .storedLen => orError .outOfBits (withField 16 .storedLen bits)
  | .storedNlen => orError .outOfBits (withField 16 .storedNlen bits)
  | .storedByte => orError .outOfBits (withField 8 .storedByte bits)
  | .dynHdr => orError .outOfBits ((takeField 14 bits).map fun p => (dynHdrOf p.1, p.2))
  | .dynCllen => orError .outOfBits (withField 3 .dynCllen bits)
  | .clSym L => decodeCoded L 7 clElement bits
  | .litLenSym L => decodeCoded L 15 litLenElement bits
  | .lenExtra s => if 257 ≤ s ∧ s ≤ 285 then orError .outOfBits (litLenElement s bits) else .error .noSuchSymbol
  | .distSym L => decodeCoded L 15 distElement bits
  | .distExtra t => if t ≤ 29 then orError .outOfBits (distElement t bits) else .error .noSuchSymbol

/-! ### The encoder (30_encoding.md rules R101 to R106, R117) -/

/-- The code-length symbol of an element of format C. -/
def Instr.clSymbol : Instr → Option Nat
  | .clLen n => some n.toNat
  | .clRep16 _ => some 16
  | .clZero17 _ => some 17
  | .clZero18 _ => some 18
  | _ => none

/-- The literal/length symbol of an element (R110). -/
def Instr.litLenSymbol : Instr → Option Nat
  | .lit b => some b.toNat
  | .eob => some 256
  | .len257 => some 257
  | .len258 => some 258
  | .len259 => some 259
  | .len260 => some 260
  | .len261 => some 261
  | .len262 => some 262
  | .len263 => some 263
  | .len264 => some 264
  | .len265 _ => some 265
  | .len266 _ => some 266
  | .len267 _ => some 267
  | .len268 _ => some 268
  | .len269 _ => some 269
  | .len270 _ => some 270
  | .len271 _ => some 271
  | .len272 _ => some 272
  | .len273 _ => some 273
  | .len274 _ => some 274
  | .len275 _ => some 275
  | .len276 _ => some 276
  | .len277 _ => some 277
  | .len278 _ => some 278
  | .len279 _ => some 279
  | .len280 _ => some 280
  | .len281 _ => some 281
  | .len282 _ => some 282
  | .len283 _ => some 283
  | .len284 _ => some 284
  | .len285 => some 285
  | .litlen286 => some 286
  | .litlen287 => some 287
  | _ => none

/-- The distance symbol of an element (R111). -/
def Instr.distSymbol : Instr → Option Nat
  | .dist0 => some 0
  | .dist1 => some 1
  | .dist2 => some 2
  | .dist3 => some 3
  | .dist4 _ => some 4
  | .dist5 _ => some 5
  | .dist6 _ => some 6
  | .dist7 _ => some 7
  | .dist8 _ => some 8
  | .dist9 _ => some 9
  | .dist10 _ => some 10
  | .dist11 _ => some 11
  | .dist12 _ => some 12
  | .dist13 _ => some 13
  | .dist14 _ => some 14
  | .dist15 _ => some 15
  | .dist16 _ => some 16
  | .dist17 _ => some 17
  | .dist18 _ => some 18
  | .dist19 _ => some 19
  | .dist20 _ => some 20
  | .dist21 _ => some 21
  | .dist22 _ => some 22
  | .dist23 _ => some 23
  | .dist24 _ => some 24
  | .dist25 _ => some 25
  | .dist26 _ => some 26
  | .dist27 _ => some 27
  | .dist28 _ => some 28
  | .dist29 _ => some 29
  | .distsym30 => some 30
  | .distsym31 => some 31
  | _ => none

/-- The extra bits an element puts after its symbol's code (R105, R106), LSB-first. -/
def Instr.extraBits : Instr → List Bool
  | .clRep16 r => fieldBits 2 (r - 3)
  | .clZero17 r => fieldBits 3 (r - 3)
  | .clZero18 r => fieldBits 7 (r - 11)
  | .len265 x => fieldBits 1 x.toNat
  | .len266 x => fieldBits 1 x.toNat
  | .len267 x => fieldBits 1 x.toNat
  | .len268 x => fieldBits 1 x.toNat
  | .len269 x => fieldBits 2 x.toNat
  | .len270 x => fieldBits 2 x.toNat
  | .len271 x => fieldBits 2 x.toNat
  | .len272 x => fieldBits 2 x.toNat
  | .len273 x => fieldBits 3 x.toNat
  | .len274 x => fieldBits 3 x.toNat
  | .len275 x => fieldBits 3 x.toNat
  | .len276 x => fieldBits 3 x.toNat
  | .len277 x => fieldBits 4 x.toNat
  | .len278 x => fieldBits 4 x.toNat
  | .len279 x => fieldBits 4 x.toNat
  | .len280 x => fieldBits 4 x.toNat
  | .len281 x => fieldBits 5 x.toNat
  | .len282 x => fieldBits 5 x.toNat
  | .len283 x => fieldBits 5 x.toNat
  | .len284 x => fieldBits 5 x.toNat
  | .dist4 y => fieldBits 1 y.toNat
  | .dist5 y => fieldBits 1 y.toNat
  | .dist6 y => fieldBits 2 y.toNat
  | .dist7 y => fieldBits 2 y.toNat
  | .dist8 y => fieldBits 3 y.toNat
  | .dist9 y => fieldBits 3 y.toNat
  | .dist10 y => fieldBits 4 y.toNat
  | .dist11 y => fieldBits 4 y.toNat
  | .dist12 y => fieldBits 5 y.toNat
  | .dist13 y => fieldBits 5 y.toNat
  | .dist14 y => fieldBits 6 y.toNat
  | .dist15 y => fieldBits 6 y.toNat
  | .dist16 y => fieldBits 7 y.toNat
  | .dist17 y => fieldBits 7 y.toNat
  | .dist18 y => fieldBits 8 y.toNat
  | .dist19 y => fieldBits 8 y.toNat
  | .dist20 y => fieldBits 9 y.toNat
  | .dist21 y => fieldBits 9 y.toNat
  | .dist22 y => fieldBits 10 y.toNat
  | .dist23 y => fieldBits 10 y.toNat
  | .dist24 y => fieldBits 11 y.toNat
  | .dist25 y => fieldBits 11 y.toNat
  | .dist26 y => fieldBits 12 y.toNat
  | .dist27 y => fieldBits 12 y.toNat
  | .dist28 y => fieldBits 13 y.toNat
  | .dist29 y => fieldBits 13 y.toNat
  | _ => []

/-- The code of symbol `s` in the table, then the extra bits; `none` where the table gives `s` no code. -/
def encodeCoded (L : List Nat) (s : Option Nat) (extra : List Bool) : Option (List Bool) :=
  s.bind fun s => if codeLen L s = 0 then none else some (codeBits (codeLen L s) (codeOf L s) ++ extra)

/-- The bits of an element where the context is the one that decodes it; `none` elsewhere. -/
def encode (c : Ctx) (i : Instr) : Option (List Bool) :=
  match c with
  | .hdr =>
    match i with
    | .hdrStored f => some [f, false, false]
    | .hdrFixed f => some [f, true, false]
    | .hdrDynamic f => some [f, false, true]
    | .hdrReserved f => some [f, true, true]
    | _ => none
  | .storedAlign left =>
    match i with
    | .storedAlign => some (List.replicate left false)
    | _ => none
  | .storedLen =>
    match i with
    | .storedLen len => some (fieldBits 16 len.toNat)
    | _ => none
  | .storedNlen =>
    match i with
    | .storedNlen nlen => some (fieldBits 16 nlen.toNat)
    | _ => none
  | .storedByte =>
    match i with
    | .storedByte b => some (fieldBits 8 b.toNat)
    | _ => none
  | .dynHdr =>
    match i with
    | .dynHdr hl hd hc => some (fieldBits 5 hl.toNat ++ fieldBits 5 hd.toNat ++ fieldBits 4 hc.toNat)
    | _ => none
  | .dynCllen =>
    match i with
    | .dynCllen v => some (fieldBits 3 v.toNat)
    | _ => none
  | .clSym L => encodeCoded L i.clSymbol i.extraBits
  | .litLenSym L => encodeCoded L i.litLenSymbol i.extraBits
  | .lenExtra s => if 257 ≤ s ∧ s ≤ 285 ∧ i.litLenSymbol = some s then some i.extraBits else none
  | .distSym L => encodeCoded L i.distSymbol i.extraBits
  | .distExtra t => if t ≤ 29 ∧ i.distSymbol = some t then some i.extraBits else none

/-! ### The words of spec/opcode_table.json (notes/assumptions/13.md) -/

/-- The row a table word is read as: a block header, a symbol of one of the three alphabets, or `STORED.LEN`. -/
inductive TableRow where
  | hdr (h : Nat)
  | cl (s : Nat)
  | litLen (s : Nat)
  | dist (t : Nat)
  | storedLen (v : Nat)
  deriving DecidableEq, Repr

/-- A word of the table does not carry its alphabet (30_encoding.md rule R117), and one byte spells a header, a
code-length symbol and a distance symbol alike: 0, 2, 4, 6 are read as headers, 16 to 18 as code-length
symbols, the other 5-bit values as distance symbols.  Two-byte words are literal/length symbols. -/
def tableRow (nbits w : Nat) : Option TableRow :=
  if nbits ≤ 8 then
    if w % 32 < 8 ∧ w % 2 = 0 then some (.hdr (w % 8))
    else if 16 ≤ w % 32 ∧ w % 32 ≤ 18 then some (.cl (w % 32))
    else some (.dist (w % 32))
  else if nbits ≤ 16 then if w % 512 ≤ 287 then some (.litLen (w % 512)) else none
  else if 18 ≤ w % 32 then some (.dist (w % 32))
  else if nbits ≤ 24 then some (.storedLen (w % 65536))
  else none

/-- A table of `n` symbols in which only `s` has a code: `0`, one bit. -/
def soleSymbol (n s : Nat) : List Nat := List.replicate s 0 ++ 1 :: List.replicate (n - 1 - s) 0

/-- The context that decodes the row: the fixed tables where they give the symbol a code, else a table with that
one symbol (the code-length alphabet has no fixed table, and distance symbols 30 and 31 no fixed code). -/
def TableRow.ctx : TableRow → Ctx
  | .hdr _ => .hdr
  | .cl s => .clSym (soleSymbol 19 s)
  | .litLen _ => .litLenSym fixedLitLen
  | .dist t => .distSym (if t < 30 then fixedDistLen else soleSymbol 32 t)
  | .storedLen _ => .storedLen

/-- The row's stream bits, with four zero bytes after them. -/
def TableRow.bits (r : TableRow) : List Bool :=
  (match r with
    | .hdr h => fieldBits 3 h
    | .cl _ => [false]
    | .litLen s => codeBits (codeLen fixedLitLen s) (codeOf fixedLitLen s)
    | .dist t => if t < 30 then codeBits 5 (codeOf fixedDistLen t) else [false]
    | .storedLen v => fieldBits 16 v) ++ List.replicate 32 false

/-- The instruction the decoder reads from a word of the opcode table. -/
def decodeTableWord (nbits w : Nat) : Option Instr :=
  (tableRow nbits w).bind fun r =>
    match decode r.ctx r.bits with
    | .ok p => some p.1
    | .error _ => none

end Sys2Proof
end

