-- ==== Sys2Proof/Machine/State.lean ====
section
/-! DEFINITION. The state of the core as plain data (10_state.md), the reasons a step stops, and the state
after reset (70_reset_and_hazards.md rules R490 to R492).

One-bit registers are `Bool`, true for 1. -/

namespace Sys2Proof.Machine

/-- The states of the controller (10_state.md rule R30). -/
inductive Fsm where
  | idle | hdr | storedAlign | storedLen | storedNlen | storedCopy | fixedSetup | dynHdr | dynCllen | dynClbuild
  | dynLens | dynBuild | sym | lenExtra | distSym | distExtra | copy | done | error
  deriving DecidableEq, Repr

/-- The errors of the core (60_exceptions.md rule R450). -/
inductive Err where
  | truncatedInput | overSubscribedHuffmanCode | invalidBlockType | invalidStoredBlockChecksum
  | invalidBackReference | unsupportedSymbol | incompleteHuffmanCode
  deriving DecidableEq, Repr

/-- Why the model stops.  An error of the core is no fault: it is a next state (60_exceptions.md rule R452). -/
inductive Fault where
  /-- `FSM` holds 19..31, which has no step (45_stream_controller.md rule R403, 93_implementation_defined.md U1).
  Raised by `step`.  Safe: the spec asks for it. -/
  | fsmUnused
  /-- `GetBits(n)` or `DropBits(n)` with n > `BIT_CNT`, or `NeedBits(n)` with n > 16 (40_bit_reader.md rule R158,
  93_implementation_defined.md U2).  Raised by the bit reader.  Safe: the spec asks for it. -/
  | bitReaderMisuse
  /-- An index outside `PERM`, `CL_LEN` or `LENS`, which no rule reaches (notes/assumptions/11.md).
  Raised by DYN_CLLEN, DYN_LENS and DYN_BUILD.  Safe. -/
  | tableIndex
  /-- LEN_EXTRA with `LSYM` outside 257..285, DIST_EXTRA with `DSYM` above 29, or a decoded symbol outside its
  alphabet, which no rule reaches (notes/assumptions/11.md).  Raised by `step`.  Safe. -/
  | noSuchSymbol
  /-- `exec` is asked for an element in an FSM state that does not decode it; `step` never asks it
  (notes/assumptions/9.md).  Raised by every meaning.  Safe. -/
  | elementOutOfState
  deriving DecidableEq, Repr

/-- What the model refuses. -/
inductive Refusal where
  /-- An instruction without a meaning yet; raised by no meaning.  Safe. -/
  | notModelled (mnemonic : String)
  /-- A host move that changes `SRC` during a call (20_memory.md rule R86, 93_implementation_defined.md U5).
  Raised by `State.hostMove`.  Safe. -/
  | sourceChangedDuringCall
  deriving DecidableEq, Repr

/-- The levels the host drives (10_state.md rule R61; `out_ready`: 20_memory.md rule R76; notes/assumptions/6.md). -/
structure Pins where
  rst : Bool
  start : Bool
  strict : Bool
  srcLen : Nat
  outReady : Bool
  deriving DecidableEq, Repr

/-- The whole state of the core, its parameters, its memories and the host's levels. -/
structure State where
  /-- The parameters of this instance, written by nothing (00_scope.md rule R12). -/
  cfg : Config
  /-- The host's levels, written by the host alone (R61). -/
  pins : Pins
  /-- `FSM` (R30). -/
  fsm : BitVec 5
  /-- `STRICT` (R33). -/
  strict : Bool
  /-- `SRC_LEN` (R34). -/
  srcLen : Nat
  /-- `IN_POS` (R35). -/
  inPos : Nat
  /-- `PAD_CNT` (R36). -/
  padCnt : BitVec 2
  /-- P of rule R38: the pad bytes staged since START (notes/assumptions/15.md). -/
  pads : Nat
  /-- `BIT_BUF` (R37). -/
  bitBuf : BitVec 32
  /-- `BIT_CNT` (R37). -/
  bitCnt : BitVec 5
  /-- `BFINAL` (R39). -/
  bfinal : Bool
  /-- `BTYPE` (R40). -/
  btype : BitVec 2
  /-- `TBL_SEL` (R41). -/
  tblSel : Bool
  /-- `LIT_LEN[0..287]` (R42). -/
  litLen : Vector (BitVec 4) 288
  /-- `DIST_LEN[0..31]` (R43). -/
  distLen : Vector (BitVec 4) 32
  /-- `CL_LEN[0..18]` (R44). -/
  clLen : Vector (BitVec 3) 19
  /-- `NLIT` (R45). -/
  nlit : BitVec 9
  /-- `NDIST` (R45). -/
  ndist : BitVec 6
  /-- `NCLEN` (R45). -/
  nclen : BitVec 5
  /-- `IDX` (R46). -/
  idx : BitVec 9
  /-- `LENS[0..315]` (R47). -/
  lens : Vector (BitVec 4) 316
  /-- `STORED_LEN` (R48). -/
  storedLen : BitVec 16
  /-- `REM` (R49). -/
  rem : BitVec 16
  /-- `LSYM` (R50). -/
  lsym : BitVec 9
  /-- `DSYM` (R51). -/
  dsym : BitVec 5
  /-- `MLEN` (R52). -/
  mlen : BitVec 9
  /-- `MDIST` (R53). -/
  mdist : BitVec 16
  /-- `WPOS` (R54). -/
  wpos : BitVec 15
  /-- `HIST_LEN` (R55). -/
  histLen : BitVec 16
  /-- `WIN[0..32767]` (R56), in the canonical form of `Memory.wf`. -/
  win : List Host.Cell
  /-- `OUT_COUNT` (R57). -/
  outCount : Nat
  /-- `ERR_CODE` (R58). -/
  errCode : BitVec 3
  /-- `SRC` (R62, R77), in the canonical form of `Memory.wf`. -/
  src : List Host.Cell
  /-- `OUT`, the bytes transferred in this call (20_memory.md rule R76). -/
  out : List Byte
  deriving DecidableEq, Repr

/-- The state after reset and power-on (R490, R491): every scalar register 0, `FSM` = IDLE.  The arrays and the
memories hold the values of notes/assumptions/3.md, 4.md and 5.md; the levels are those of 6.md. -/
def State.reset : State where
  cfg := Config.default
  pins := { rst := false, start := false, strict := false, srcLen := 0, outReady := true }
  fsm := 0
  strict := false
  srcLen := 0
  inPos := 0
  padCnt := 0
  pads := 0
  bitBuf := 0
  bitCnt := 0
  bfinal := false
  btype := 0
  tblSel := false
  litLen := Vector.replicate 288 0
  distLen := Vector.replicate 32 0
  clLen := Vector.replicate 19 0
  nlit := 0
  ndist := 0
  nclen := 0
  idx := 0
  lens := Vector.replicate 316 0
  storedLen := 0
  rem := 0
  lsym := 0
  dsym := 0
  mlen := 0
  mdist := 0
  wpos := 0
  histLen := 0
  win := []
  outCount := 0
  errCode := 0
  src := []
  out := []

end Sys2Proof.Machine
end

