-- ==== Sys2Proof/Machine/Memory.lean ====
section
/-! DEFINITION. Byte memories (`SRC` and `WIN`) as lists of (address, byte) pairs in one canonical form:
addresses strictly rising, no entry equal to what an unlisted address reads as. -/

namespace Sys2Proof.Machine

/-- What an unlisted address of `WIN` or `SRC` reads as (notes/assumptions/4.md, 5.md). -/
def Memory.unlisted : Byte := 0

/-- `MemRead(_, a, 1)` (00_scope.md rule R16). -/
def Memory.read : List Host.Cell → Nat → Byte
  | [], _ => Memory.unlisted
  | (b, v) :: m, a => if a = b then v else Memory.read m a

/-- `MemWrite(_, a, 1, v)` (R16), keeping the canonical form. -/
def Memory.write : List Host.Cell → Nat → Byte → List Host.Cell
  | [], a, v => if v = Memory.unlisted then [] else [(a, v)]
  | (b, u) :: m, a, v =>
    if a < b then if v = Memory.unlisted then (b, u) :: m else (a, v) :: (b, u) :: m
    else if a = b then if v = Memory.unlisted then m else (a, v) :: m
    else (b, u) :: Memory.write m a v

/-- The canonical form, all addresses at least `lo`. -/
def Memory.wfFrom : Nat → List Host.Cell → Bool
  | _, [] => true
  | lo, (a, v) :: m => decide (lo ≤ a) && decide (v ≠ Memory.unlisted) && Memory.wfFrom (a + 1) m

/-- The canonical form. -/
def Memory.wf (m : List Host.Cell) : Bool := Memory.wfFrom 0 m

/-- Every listed address is below `hi`. -/
def Memory.below (hi : Nat) (m : List Host.Cell) : Bool := m.all fun c => decide (c.1 < hi)

/-- The bytes of a payload at offsets `a`, `a + 1`, ... (45_stream_controller.md rule R410). -/
def Memory.ofBytes : Nat → List Byte → List Host.Cell
  | _, [] => []
  | a, v :: vs => if v = Memory.unlisted then Memory.ofBytes (a + 1) vs else (a, v) :: Memory.ofBytes (a + 1) vs

end Sys2Proof.Machine
end

