-- ==== Sys2Proof/Machine/Flags.lean ====
section
/-! DEFINITION. The encodings a host sees: the FSM states (10_state.md rule R30), the error codes
(60_exceptions.md rule R450) and the status word (10_state.md rule R60).  The core has no condition codes. -/

namespace Sys2Proof.Machine

/-- The value of `FSM` in each state (R30). -/
def Fsm.code : Fsm → BitVec 5
  | .idle => 0
  | .hdr => 1
  | .storedAlign => 2
  | .storedLen => 3
  | .storedNlen => 4
  | .storedCopy => 5
  | .fixedSetup => 6
  | .dynHdr => 7
  | .dynCllen => 8
  | .dynClbuild => 9
  | .dynLens => 10
  | .dynBuild => 11
  | .sym => 12
  | .lenExtra => 13
  | .distSym => 14
  | .distExtra => 15
  | .copy => 16
  | .done => 17
  | .error => 18

/-- The state a value of `FSM` names; `none` for 19..31 (R30). -/
def Fsm.ofCode (c : BitVec 5) : Option Fsm :=
  match c.toNat with
  | 0 => some .idle
  | 1 => some .hdr
  | 2 => some .storedAlign
  | 3 => some .storedLen
  | 4 => some .storedNlen
  | 5 => some .storedCopy
  | 6 => some .fixedSetup
  | 7 => some .dynHdr
  | 8 => some .dynCllen
  | 9 => some .dynClbuild
  | 10 => some .dynLens
  | 11 => some .dynBuild
  | 12 => some .sym
  | 13 => some .lenExtra
  | 14 => some .distSym
  | 15 => some .distExtra
  | 16 => some .copy
  | 17 => some .done
  | 18 => some .error
  | _ => none

/-- The value of `ERR_CODE` for each error (R450); 0 is NONE. -/
def Err.code : Err → BitVec 3
  | .truncatedInput => 1
  | .overSubscribedHuffmanCode => 2
  | .invalidBlockType => 3
  | .invalidStoredBlockChecksum => 4
  | .invalidBackReference => 5
  | .unsupportedSymbol => 6
  | .incompleteHuffmanCode => 7

/-- No call is running: IDLE, DONE or ERROR, the states START is accepted in (45_stream_controller.md rule R401). -/
def State.atRest (s : State) : Bool :=
  s.fsm == Fsm.idle.code || s.fsm == Fsm.done.code || s.fsm == Fsm.error.code

/-- STATUS.BUSY (R60). -/
def State.busy (s : State) : Bool := !s.atRest

/-- The status word (R60): bit 0 BUSY, bit 1 DONE, bit 2 ERROR, bits 5:3 ERR_CODE, bits 10:6 STATE, the rest 0. -/
def State.status (s : State) : BitVec 32 :=
  (BitVec.ofBool s.busy).setWidth 32
    ||| ((BitVec.ofBool (s.fsm == Fsm.done.code)).setWidth 32 <<< 1)
    ||| ((BitVec.ofBool (s.fsm == Fsm.error.code)).setWidth 32 <<< 2)
    ||| (s.errCode.setWidth 32 <<< 3)
    ||| (s.fsm.setWidth 32 <<< 6)

/-- The call's result (45_stream_controller.md rule R407): the bytes of `OUT` on DONE, the error code on ERROR, none
while a call has not ended. -/
def State.callResult (s : State) : Option (Except (BitVec 3) (List Byte)) :=
  if s.fsm = Fsm.done.code then some (.ok s.out)
  else if s.fsm = Fsm.error.code then some (.error s.errCode)
  else none

end Sys2Proof.Machine
end

