-- ==== Sys2Proof/Machine/Operands.lean ====
section
/-! DEFINITION. The operands the elements take from the state: the permutation of the code-length alphabet
(30_encoding.md rule R104), the code-length arrays and the table a block decodes with (10_state.md rules R41
to R47), and the context of the next element (rule R30). -/

namespace Sys2Proof.Machine

/-- `PERM` (30_encoding.md rule R104). -/
def perm : List Nat := [16, 17, 18, 0, 8, 7, 9, 6, 10, 5, 11, 4, 12, 3, 13, 2, 14, 1, 15]

/-- An array of code lengths as numbers, symbol 0 first. -/
def natLens {n w : Nat} (v : Vector (BitVec w) n) : List Nat := v.toList.map BitVec.toNat

/-- `LENS[i]`; 0 past the array's end. -/
def State.lensAt (s : State) (i : Nat) : BitVec 4 := s.lens.toList.getD i 0

/-- `LENS[i .. i+r-1] <- v` (42_block_decoder.md rule R235). -/
def fillLens (lens : Vector (BitVec 4) 316) (v : BitVec 4) : (i r : Nat) → Vector (BitVec 4) 316
  | _, 0 => lens
  | i, r + 1 => fillLens (lens.setIfInBounds i v) v (i + 1) r

/-- T of rule R235: the number of code lengths the block transmits. -/
def State.lensTotal (s : State) : Nat := s.nlit.toNat + s.ndist.toNat

/-- `LIT_LEN` of rule R241, cut from `LENS`. -/
def State.litLenFromLens (s : State) : Vector (BitVec 4) 288 :=
  Vector.ofFn fun i : Fin 288 => if i.val < s.nlit.toNat then s.lensAt i.val else 0

/-- `DIST_LEN` of rule R241, cut from `LENS`. -/
def State.distLenFromLens (s : State) : Vector (BitVec 4) 32 :=
  Vector.ofFn fun i : Fin 32 => if i.val < s.ndist.toNat then s.lensAt (s.nlit.toNat + i.val) else 0

/-- The code-length table of DYN_LENS (R235). -/
def State.clTable (s : State) : List Nat := natLens s.clLen

/-- The literal/length table of SYM (43_symbols.md rule R270). -/
def State.litTable (s : State) : List Nat := if s.tblSel then fixedLitLen else natLens s.litLen

/-- The distance table of DIST_SYM (43_symbols.md rule R273). -/
def State.distTable (s : State) : List Nat := if s.tblSel then fixedDistLen else natLens s.distLen

/-- What the FSM state says of the next stream bits; `none` in a state whose step reads no element (R30). -/
def State.ctx (s : State) : Fsm → Option Ctx
  | .hdr => some .hdr
  | .storedAlign => some (.storedAlign (s.bitCnt.toNat % 8))
  | .storedLen => some .storedLen
  | .storedNlen => some .storedNlen
  | .storedCopy => some .storedByte
  | .dynHdr => some .dynHdr
  | .dynCllen => some .dynCllen
  | .dynLens => some (.clSym s.clTable)
  | .sym => some (.litLenSym s.litTable)
  | .lenExtra => some (.lenExtra s.lsym.toNat)
  | .distSym => some (.distSym s.distTable)
  | .distExtra => some (.distExtra s.dsym.toNat)
  | .idle | .fixedSetup | .dynClbuild | .dynBuild | .copy | .done | .error => none

end Sys2Proof.Machine
end

