-- ==== Sys2Proof/Machine/Ops.lean ====
section
/-! DEFINITION. The shared operations of the steps: the outcome of a step (45_stream_controller.md rule R404), error
entry and what leaves it (60_exceptions.md rules R452, R456), the bit reader (40_bit_reader.md), the sliding window
(44_sliding_window.md), the output port (20_memory.md rule R76), reset and START. -/

namespace Sys2Proof.Machine

/-! ### The outcome of a step -/

/-- Why the computation of a step stops before its end. -/
inductive Stop where
  /-- `raise E` (00_scope.md rule R18). -/
  | raise (e : Err)
  /-- `hold` (R19): the step would produce a byte and `out_ready` = 0. -/
  | hold
  /-- A fault of the model. -/
  | fault (f : Fault)
  deriving DecidableEq, Repr

/-- Error entry (60_exceptions.md rule R452): `ERR_CODE` and `FSM`, and nothing else. -/
def State.raise (e : Err) (s : State) : State := { s with errCode := e.code, fsm := Fsm.error.code }

/-- The outcome of a step that starts in `s` (R404): an advance takes every write, a raise keeps `s` but for the error
entry, a hold keeps `s`. -/
def finish (s : State) : Except Stop State → Host.Outcome State Fault Refusal
  | .ok t => .next t
  | .error (.raise e) => .next (s.raise e)
  | .error .hold => .next s
  | .error (.fault f) => .fault f

/-- The step of an element that state `f` decodes; in another state the element is not at the cursor. -/
def inState (f : Fsm) (s : State) (k : Except Stop State) : Host.Outcome State Fault Refusal :=
  if s.fsm = f.code then finish s k else .fault .elementOutOfState

/-! ### The bit reader -/

/-- `ByteIn()` (40_bit_reader.md rule R152). -/
def State.byteIn (s : State) : Byte × State :=
  if s.inPos < s.srcLen then (Memory.read s.src s.inPos, { s with inPos := s.inPos + 1 })
  else (0, { s with padCnt := if s.padCnt = 3 then 3 else s.padCnt + 1, pads := s.pads + 1 })

/-- One turn of the loop of `NeedBits` (R151). -/
def State.stageByte (s : State) : State :=
  { s.byteIn.2 with
    bitBuf := s.bitBuf ||| (s.byteIn.1.setWidth 32 <<< s.bitCnt.toNat)
    bitCnt := s.bitCnt + 8 }

/-- The loop of `NeedBits(n)`, at most `k` turns. -/
def State.stageLoop (n : Nat) : Nat → State → State
  | 0, s => s
  | k + 1, s => if s.bitCnt.toNat < n then State.stageLoop n k s.stageByte else s

/-- The state after `NeedBits(n)`, n ≤ 16: at most 2 bytes are pulled (R151). -/
def State.staged (n : Nat) (s : State) : State := State.stageLoop n 2 s

/-- `NeedBits(n)` (R151, R158). -/
def needBits (n : Nat) (s : State) : Except Stop State :=
  if n ≤ 16 then .ok (s.staged n) else .error (.fault .bitReaderMisuse)

/-- `GetBits(n)` (R153, R158). -/
def getBits (n : Nat) (s : State) : Except Stop Nat :=
  if n ≤ s.bitCnt.toNat then .ok (s.bitBuf.toNat % 2 ^ n) else .error (.fault .bitReaderMisuse)

/-- The buffer without its `n` oldest bits (R154). -/
def State.shiftOut (n : Nat) (s : State) : State :=
  { s with bitBuf := s.bitBuf >>> n, bitCnt := s.bitCnt - BitVec.ofNat 5 n }

/-- The condition of `TruncCheck()` (R155). -/
def State.truncated (s : State) : Bool := s.strict && decide (s.bitCnt.toNat < 8 * s.padCnt.toNat)

/-- `DropBits(n)` (R154, R155, R158). -/
def dropBits (n : Nat) (s : State) : Except Stop State :=
  if n ≤ s.bitCnt.toNat then
    if (s.shiftOut n).truncated then .error (.raise .truncatedInput) else .ok (s.shiftOut n)
  else .error (.fault .bitReaderMisuse)

/-- `ReadBits(n)` (R156). -/
def readBits (n : Nat) (s : State) : Except Stop (Nat × State) := do
  let s₁ ← needBits n s
  let v ← getBits n s₁
  let s₂ ← dropBits n s₁
  pure (v, s₂)

/-- `NeedBits(m)` then `DropBits(n)`: what `ReadBits` and `Decode` do to the state, when the decoder has the value. -/
def consume (m n : Nat) (s : State) : Except Stop State := do
  let s₁ ← needBits m s
  dropBits n s₁

/-- The state `consume m n` leaves when nothing is raised. -/
def State.consumed (m n : Nat) (s : State) : State := (s.staged m).shiftOut n

/-- `AlignToByte()` (R157). -/
def alignToByte (s : State) : Except Stop State := dropBits (s.bitCnt.toNat % 8) s

/-- The next `n` stream bits, read with `NeedBits(1)`, `GetBits(1)`, `DropBits(1)` on a copy of the state and without
`TruncCheck`: what the decoder sees.  Staging is unobservable (41_huffman.md rule R191). -/
def State.peek : Nat → State → List Bool
  | 0, _ => []
  | n + 1, s => (s.staged 1).bitBuf.getLsbD 0 :: State.peek n ((s.staged 1).shiftOut 1)

/-- The consumed-bit cursor `CUR` (10_state.md rule R38). -/
def State.cur (s : State) : Nat := 8 * (s.inPos + s.pads) - s.bitCnt.toNat

/-- `Decode(L, MAXB)` for the element of symbol `sym` (41_huffman.md rules R189, R190): its code bits are consumed; a
symbol without a code in the table is no code at all (notes/assumptions/10.md). -/
def consumeCode (L : List Nat) (maxb sym : Nat) (s : State) : Except Stop State := do
  let s₁ ← needBits maxb s
  if codeLen L sym = 0 then throw (.raise .unsupportedSymbol) else dropBits (codeLen L sym) s₁

/-- `Decode(L, MAXB)` (R189, R190) as the rule writes it: stage MAXB bits, find the code in their value, drop it. -/
def readCode (L : List Nat) (maxb : Nat) (s : State) : Except Stop (Nat × State) := do
  let s₁ ← needBits maxb s
  let p ← getBits maxb s₁
  match decodeSym L maxb (fieldBits maxb p) with
  | none => throw (.raise .unsupportedSymbol)
  | some q =>
    let s₂ ← dropBits q.2 s₁
    pure (q.1, s₂)

/-! ### The window and the output port -/

/-- `WinPut(b)` (44_sliding_window.md rule R370). -/
def State.winPut (b : Byte) (s : State) : State :=
  { s with
    win := Memory.write s.win s.wpos.toNat b
    wpos := s.wpos + 1
    histLen := BitVec.ofNat 16 (min (s.histLen.toNat + 1) 32768) }

/-- The address `WinBack(d)` reads (R371): `(WPOS - d) mod 32768`. -/
def State.winAddr (d : BitVec 16) (s : State) : Nat := (s.wpos - d.setWidth 15).toNat

/-- `WinBack(d)` (R371). -/
def State.winBack (d : BitVec 16) (s : State) : Byte := Memory.read s.win (s.winAddr d)

/-- `OutPush(b)` of a byte that is transferred (20_memory.md rule R76). -/
def State.outPush (b : Byte) (s : State) : State :=
  { s with out := s.out ++ [b], outCount := (s.outCount + 1) % 2 ^ s.cfg.outCountW }

/-- `Produce(b)` (43_symbols.md rule R275): the window and the output in one step; holds while `out_ready` = 0. -/
def produce (b : Byte) (s : State) : Except Stop State :=
  if s.pins.outReady then .ok ((s.winPut b).outPush b) else .error .hold

/-! ### Control -/

/-- `FSM <- f`. -/
def State.goto (f : Fsm) (s : State) : State := { s with fsm := f.code }

/-- `BlockEnd()` (42_block_decoder.md rule R243). -/
def State.blockEnd (s : State) : State := s.goto (if s.bfinal then .done else .hdr)

/-- START (45_stream_controller.md rule R401) with the host's levels of `strict` and `src_len`.  After it the state is
the same whatever the call before did, but for the arrays and `WIN` (70_reset_and_hazards.md rule R493, decision D20):
the registers the list of R401 does not name are cleared too (notes/assumptions/19.md). -/
def State.start (s : State) : State :=
  { s with
    strict := s.pins.strict
    srcLen := s.pins.srcLen % 2 ^ s.cfg.srcLenW
    inPos := 0
    padCnt := 0
    pads := 0
    bitBuf := 0
    bitCnt := 0
    bfinal := false
    btype := 0
    tblSel := false
    nlit := 0
    ndist := 0
    nclen := 0
    idx := 0
    storedLen := 0
    rem := 0
    lsym := 0
    dsym := 0
    mlen := 0
    mdist := 0
    wpos := 0
    histLen := 0
    outCount := 0
    errCode := 0
    out := []
    fsm := if s.pins.srcLen % 2 ^ s.cfg.srcLenW = 0 then Fsm.done.code else Fsm.hdr.code }

/-- `rst` applied (70_reset_and_hazards.md rule R490): every scalar register takes its reset value.  The parameters and
the host's levels and `SRC` are not the core's to reset, and the arrays and `WIN` keep what they hold
(notes/assumptions/7.md). -/
def State.applyReset (s : State) : State :=
  { State.reset with
    cfg := s.cfg
    pins := s.pins
    litLen := s.litLen
    distLen := s.distLen
    clLen := s.clLen
    lens := s.lens
    win := s.win
    src := s.src }

end Sys2Proof.Machine
end

