-- ==== Sys2Proof/Machine/Block.lean ====
section
/-! DEFINITION. Block headers (42_block_decoder.md rules R220 to R223, R228, R230) and STORED blocks (R224 to R227). -/

namespace Sys2Proof.Machine

/-- The reads of step HDR (R220): BFINAL, then BTYPE. -/
def readHeader (s : State) : Except Stop State := do
  let s₁ ← consume 1 1 s
  consume 2 2 s₁

/-- Step HDR for a block type that is decoded: `BFINAL`, `BTYPE` and the state the block starts in (R220). -/
def header (f : Bool) (t : BitVec 2) (first : Fsm) (s : State) : Host.Outcome State Fault Refusal :=
  inState .hdr s do
    let s₁ ← readHeader s
    pure { s₁ with bfinal := f, btype := t, fsm := first.code }

/-- `HDR.STORED f` (R222). -/
def execHdrStored (f : Bool) (s : State) : Host.Outcome State Fault Refusal := header f 0 .storedAlign s

/-- `HDR.FIXED f` (R228). -/
def execHdrFixed (f : Bool) (s : State) : Host.Outcome State Fault Refusal := header f 1 .fixedSetup s

/-- `HDR.DYNAMIC f` (R230). -/
def execHdrDynamic (f : Bool) (s : State) : Host.Outcome State Fault Refusal := header f 2 .dynHdr s

/-- `HDR.RESERVED f` (R223): InvalidBlockType once the header is read; `BFINAL` and `BTYPE` keep their values. -/
def execHdrReserved (_f : Bool) (s : State) : Host.Outcome State Fault Refusal :=
  inState .hdr s do
    let _ ← readHeader s
    throw (.raise .invalidBlockType)

/-- `STORED.ALIGN` (R224). -/
def execStoredAlign (s : State) : Host.Outcome State Fault Refusal :=
  inState .storedAlign s do
    let s₁ ← alignToByte s
    pure (s₁.goto .storedLen)

/-- `STORED.LEN` (R225). -/
def execStoredLen (len : BitVec 16) (s : State) : Host.Outcome State Fault Refusal :=
  inState .storedLen s do
    let s₁ ← consume 16 16 s
    pure { s₁ with storedLen := len, fsm := Fsm.storedNlen.code }

/-- `STORED.NLEN` (R226). -/
def execStoredNlen (nlen : BitVec 16) (s : State) : Host.Outcome State Fault Refusal :=
  inState .storedNlen s do
    let s₁ ← consume 16 16 s
    if s.storedLen ≠ ~~~nlen then throw (.raise .invalidStoredBlockChecksum)
    else if s.storedLen = 0 then pure s₁.blockEnd
    else pure { s₁ with rem := s.storedLen, fsm := Fsm.storedCopy.code }

/-- `STORED.BYTE` (R227): one raw byte into window and output. -/
def execStoredByte (b : Byte) (s : State) : Host.Outcome State Fault Refusal :=
  inState .storedCopy s do
    let s₁ ← consume 8 8 s
    let s₂ ← produce b s₁
    let s₃ := { s₂ with rem := s.rem - 1 }
    pure (if s.rem - 1 = 0 then s₃.blockEnd else s₃)

end Sys2Proof.Machine
end

