-- ==== Sys2Proof/Machine/Distance.lean ====
section
/-! DEFINITION. The distance elements of the symbol loop (43_symbols.md rules R273, R274, R310 to R340).

A distance element spans two steps: DIST_SYM consumes its code and DIST_EXTRA its extra bits (R271,
notes/assumptions/8.md).  Its meaning is the step of the FSM state it stands in. -/

namespace Sys2Proof.Machine

/-- Distance symbol `t` with DBASE = `base`, DEXT = `e` and extra value `y`: DIST_SYM sets `DSYM` (R273), DIST_EXTRA
checks the distance against `HIST_LEN` and enters COPY (R274). -/
def distElement (t base e y : Nat) (s : State) : Host.Outcome State Fault Refusal :=
  if s.fsm = Fsm.distSym.code then
    finish s do
      let s₁ ← consumeCode s.distTable 15 t s
      pure { s₁ with dsym := BitVec.ofNat 5 t, fsm := Fsm.distExtra.code }
  else if s.fsm = Fsm.distExtra.code ∧ s.dsym.toNat = t then
    finish s do
      let s₁ ← consume e e s
      if s.histLen.toNat < base + y then throw (.raise .invalidBackReference)
      else
        pure { s₁ with
          mdist := BitVec.ofNat 16 (base + y)
          rem := s.mlen.setWidth 16
          fsm := Fsm.copy.code }
  else .fault .elementOutOfState

/-- A distance symbol without a meaning (R273, R340): UnsupportedSymbol. -/
def noDistance (t : Nat) (s : State) : Host.Outcome State Fault Refusal :=
  inState .distSym s do
    let _ ← consumeCode s.distTable 15 t s
    throw (.raise .unsupportedSymbol)

/-- Distance symbol 30 (R340). -/
def execDistsym30 (s : State) : Host.Outcome State Fault Refusal := noDistance 30 s

/-- Distance symbol 31 (R340). -/
def execDistsym31 (s : State) : Host.Outcome State Fault Refusal := noDistance 31 s

/-- `DIST_0` (R310): DBASE = 1, DEXT = 0. -/
def execDist0 (s : State) : Host.Outcome State Fault Refusal :=
  distElement 0 1 0 0 s

/-- `DIST_1` (R311): DBASE = 2, DEXT = 0. -/
def execDist1 (s : State) : Host.Outcome State Fault Refusal :=
  distElement 1 2 0 0 s

/-- `DIST_2` (R312): DBASE = 3, DEXT = 0. -/
def execDist2 (s : State) : Host.Outcome State Fault Refusal :=
  distElement 2 3 0 0 s

/-- `DIST_3` (R313): DBASE = 4, DEXT = 0. -/
def execDist3 (s : State) : Host.Outcome State Fault Refusal :=
  distElement 3 4 0 0 s

/-- `DIST_4 y` (R314): DBASE = 5, DEXT = 1. -/
def execDist4 (y : BitVec 1) (s : State) : Host.Outcome State Fault Refusal :=
  distElement 4 5 1 y.toNat s

/-- `DIST_5 y` (R315): DBASE = 7, DEXT = 1. -/
def execDist5 (y : BitVec 1) (s : State) : Host.Outcome State Fault Refusal :=
  distElement 5 7 1 y.toNat s

/-- `DIST_6 y` (R316): DBASE = 9, DEXT = 2. -/
def execDist6 (y : BitVec 2) (s : State) : Host.Outcome State Fault Refusal :=
  distElement 6 9 2 y.toNat s

/-- `DIST_7 y` (R317): DBASE = 13, DEXT = 2. -/
def execDist7 (y : BitVec 2) (s : State) : Host.Outcome State Fault Refusal :=
  distElement 7 13 2 y.toNat s

/-- `DIST_8 y` (R318): DBASE = 17, DEXT = 3. -/
def execDist8 (y : BitVec 3) (s : State) : Host.Outcome State Fault Refusal :=
  distElement 8 17 3 y.toNat s

/-- `DIST_9 y` (R319): DBASE = 25, DEXT = 3. -/
def execDist9 (y : BitVec 3) (s : State) : Host.Outcome State Fault Refusal :=
  distElement 9 25 3 y.toNat s

/-- `DIST_10 y` (R320): DBASE = 33, DEXT = 4. -/
def execDist10 (y : BitVec 4) (s : State) : Host.Outcome State Fault Refusal :=
  distElement 10 33 4 y.toNat s

/-- `DIST_11 y` (R321): DBASE = 49, DEXT = 4. -/
def execDist11 (y : BitVec 4) (s : State) : Host.Outcome State Fault Refusal :=
  distElement 11 49 4 y.toNat s

/-- `DIST_12 y` (R322): DBASE = 65, DEXT = 5. -/
def execDist12 (y : BitVec 5) (s : State) : Host.Outcome State Fault Refusal :=
  distElement 12 65 5 y.toNat s

/-- `DIST_13 y` (R323): DBASE = 97, DEXT = 5. -/
def execDist13 (y : BitVec 5) (s : State) : Host.Outcome State Fault Refusal :=
  distElement 13 97 5 y.toNat s

/-- `DIST_14 y` (R324): DBASE = 129, DEXT = 6. -/
def execDist14 (y : BitVec 6) (s : State) : Host.Outcome State Fault Refusal :=
  distElement 14 129 6 y.toNat s

/-- `DIST_15 y` (R325): DBASE = 193, DEXT = 6. -/
def execDist15 (y : BitVec 6) (s : State) : Host.Outcome State Fault Refusal :=
  distElement 15 193 6 y.toNat s

/-- `DIST_16 y` (R326): DBASE = 257, DEXT = 7. -/
def execDist16 (y : BitVec 7) (s : State) : Host.Outcome State Fault Refusal :=
  distElement 16 257 7 y.toNat s

/-- `DIST_17 y` (R327): DBASE = 385, DEXT = 7. -/
def execDist17 (y : BitVec 7) (s : State) : Host.Outcome State Fault Refusal :=
  distElement 17 385 7 y.toNat s

/-- `DIST_18 y` (R328): DBASE = 513, DEXT = 8. -/
def execDist18 (y : BitVec 8) (s : State) : Host.Outcome State Fault Refusal :=
  distElement 18 513 8 y.toNat s

/-- `DIST_19 y` (R329): DBASE = 769, DEXT = 8. -/
def execDist19 (y : BitVec 8) (s : State) : Host.Outcome State Fault Refusal :=
  distElement 19 769 8 y.toNat s

/-- `DIST_20 y` (R330): DBASE = 1025, DEXT = 9. -/
def execDist20 (y : BitVec 9) (s : State) : Host.Outcome State Fault Refusal :=
  distElement 20 1025 9 y.toNat s

/-- `DIST_21 y` (R331): DBASE = 1537, DEXT = 9. -/
def execDist21 (y : BitVec 9) (s : State) : Host.Outcome State Fault Refusal :=
  distElement 21 1537 9 y.toNat s

/-- `DIST_22 y` (R332): DBASE = 2049, DEXT = 10. -/
def execDist22 (y : BitVec 10) (s : State) : Host.Outcome State Fault Refusal :=
  distElement 22 2049 10 y.toNat s

/-- `DIST_23 y` (R333): DBASE = 3073, DEXT = 10. -/
def execDist23 (y : BitVec 10) (s : State) : Host.Outcome State Fault Refusal :=
  distElement 23 3073 10 y.toNat s

/-- `DIST_24 y` (R334): DBASE = 4097, DEXT = 11. -/
def execDist24 (y : BitVec 11) (s : State) : Host.Outcome State Fault Refusal :=
  distElement 24 4097 11 y.toNat s

/-- `DIST_25 y` (R335): DBASE = 6145, DEXT = 11. -/
def execDist25 (y : BitVec 11) (s : State) : Host.Outcome State Fault Refusal :=
  distElement 25 6145 11 y.toNat s

/-- `DIST_26 y` (R336): DBASE = 8193, DEXT = 12. -/
def execDist26 (y : BitVec 12) (s : State) : Host.Outcome State Fault Refusal :=
  distElement 26 8193 12 y.toNat s

/-- `DIST_27 y` (R337): DBASE = 12289, DEXT = 12. -/
def execDist27 (y : BitVec 12) (s : State) : Host.Outcome State Fault Refusal :=
  distElement 27 12289 12 y.toNat s

/-- `DIST_28 y` (R338): DBASE = 16385, DEXT = 13. -/
def execDist28 (y : BitVec 13) (s : State) : Host.Outcome State Fault Refusal :=
  distElement 28 16385 13 y.toNat s

/-- `DIST_29 y` (R339): DBASE = 24577, DEXT = 13. -/
def execDist29 (y : BitVec 13) (s : State) : Host.Outcome State Fault Refusal :=
  distElement 29 24577 13 y.toNat s

end Sys2Proof.Machine
end

