-- ==== Sys2Proof/Machine/Dynamic.lean ====
section
/-! DEFINITION. The header of a DYNAMIC block (42_block_decoder.md rules R231 to R233) and its code-length elements
(R235 to R240). -/

namespace Sys2Proof.Machine

/-- `DYN.HDR` (R231, R232). -/
def execDynHdr (hlit : BitVec 5) (hdist : BitVec 5) (hclen : BitVec 4) (s : State) :
    Host.Outcome State Fault Refusal :=
  inState .dynHdr s do
    let s₁ ← consume 5 5 s
    let s₂ ← consume 5 5 s₁
    let s₃ ← consume 4 4 s₂
    if 29 < hlit.toNat ∨ 29 < hdist.toNat then throw (.raise .unsupportedSymbol)
    else
      pure { s₃ with
        nlit := BitVec.ofNat 9 (hlit.toNat + 257)
        ndist := BitVec.ofNat 6 (hdist.toNat + 1)
        nclen := BitVec.ofNat 5 (hclen.toNat + 4)
        clLen := Vector.replicate 19 0
        idx := 0
        fsm := Fsm.dynCllen.code }

/-- `DYN.CLLEN` (R233): the length of code-length symbol `PERM[IDX]`. -/
def execDynCllen (v : BitVec 3) (s : State) : Host.Outcome State Fault Refusal :=
  inState .dynCllen s do
    let s₁ ← consume 3 3 s
    match perm[s.idx.toNat]? with
    | none => throw (.fault .tableIndex)
    | some j =>
      pure { s₁ with
        clLen := s.clLen.setIfInBounds j v
        idx := BitVec.ofNat 9 (s.idx.toNat + 1)
        fsm := if s.idx.toNat + 1 = s.nclen.toNat then Fsm.dynClbuild.code else Fsm.dynCllen.code }

/-- The end of step DYN_LENS (R235, R240): `r` lengths of value `v` at `LENS[IDX]`, in a state `s₁` whose bits are read. -/
def putLengths (v : BitVec 4) (r : Nat) (s₁ : State) : Except Stop State :=
  if s₁.lensTotal < s₁.idx.toNat + r then throw (.raise .unsupportedSymbol)
  else if 316 < s₁.idx.toNat + r then throw (.fault .tableIndex)
  else
    pure { s₁ with
      lens := fillLens s₁.lens v s₁.idx.toNat r
      idx := BitVec.ofNat 9 (s₁.idx.toNat + r)
      fsm := if s₁.idx.toNat + r = s₁.lensTotal then Fsm.dynBuild.code else Fsm.dynLens.code }

/-- `CL_LEN n` (R236). -/
def execClLen (n : BitVec 4) (s : State) : Host.Outcome State Fault Refusal :=
  inState .dynLens s do
    let s₁ ← consumeCode s.clTable 7 n.toNat s
    putLengths n 1 s₁

/-- `CL_REP16 r` (R237): repeat the previous length; UnsupportedSymbol where there is none, before the extra bits. -/
def execClRep16 (r : Nat) (s : State) : Host.Outcome State Fault Refusal :=
  inState .dynLens s do
    let s₁ ← consumeCode s.clTable 7 16 s
    if s.idx = 0 then throw (.raise .unsupportedSymbol)
    else
      let s₂ ← consume 2 2 s₁
      putLengths (s.lensAt (s.idx.toNat - 1)) r s₂

/-- `CL_ZERO17 r` (R238). -/
def execClZero17 (r : Nat) (s : State) : Host.Outcome State Fault Refusal :=
  inState .dynLens s do
    let s₁ ← consumeCode s.clTable 7 17 s
    let s₂ ← consume 3 3 s₁
    putLengths 0 r s₂

/-- `CL_ZERO18 r` (R239). -/
def execClZero18 (r : Nat) (s : State) : Host.Outcome State Fault Refusal :=
  inState .dynLens s do
    let s₁ ← consumeCode s.clTable 7 18 s
    let s₂ ← consume 7 7 s₁
    putLengths 0 r s₂

end Sys2Proof.Machine
end

