-- ==== Sys2Proof/Machine/Symbols.lean ====
section
/-! DEFINITION. The literal/length elements of the symbol loop (43_symbols.md rules R270, R272, R276 to R308).

A length element spans two steps: SYM consumes its code and LEN_EXTRA its extra bits (R271, notes/assumptions/8.md).
Its meaning is the step of the FSM state it stands in. -/

namespace Sys2Proof.Machine

/-- `LIT b` (R276) in step SYM: the code, then the byte produced; `FSM` stays SYM. -/
def execLit (b : Byte) (s : State) : Host.Outcome State Fault Refusal :=
  inState .sym s do
    let s₁ ← consumeCode s.litTable 15 b.toNat s
    produce b s₁

/-- `EOB` (R277) in step SYM. -/
def execEob (s : State) : Host.Outcome State Fault Refusal :=
  inState .sym s do
    let s₁ ← consumeCode s.litTable 15 256 s
    pure s₁.blockEnd

/-- A literal/length symbol without a meaning (R278): UnsupportedSymbol once its code is consumed. -/
def noLength (sym : Nat) (s : State) : Host.Outcome State Fault Refusal :=
  inState .sym s do
    let _ ← consumeCode s.litTable 15 sym s
    throw (.raise .unsupportedSymbol)

/-- Literal/length symbol 286 (R278). -/
def execLitlen286 (s : State) : Host.Outcome State Fault Refusal := noLength 286 s

/-- Literal/length symbol 287 (R278). -/
def execLitlen287 (s : State) : Host.Outcome State Fault Refusal := noLength 287 s

/-- Length symbol `sym` with LBASE = `base`, LEXT = `e` and extra value `x`: SYM sets `LSYM` (R270), LEN_EXTRA sets
`MLEN <- LBASE + x` (R272). -/
def lengthElement (sym base e x : Nat) (s : State) : Host.Outcome State Fault Refusal :=
  if s.fsm = Fsm.sym.code then
    finish s do
      let s₁ ← consumeCode s.litTable 15 sym s
      pure { s₁ with lsym := BitVec.ofNat 9 sym, fsm := Fsm.lenExtra.code }
  else if s.fsm = Fsm.lenExtra.code ∧ s.lsym.toNat = sym then
    finish s do
      let s₁ ← consume e e s
      pure { s₁ with mlen := BitVec.ofNat 9 (base + x), fsm := Fsm.distSym.code }
  else .fault .elementOutOfState

/-- `LEN_257` (R280): LBASE = 3, LEXT = 0. -/
def execLen257 (s : State) : Host.Outcome State Fault Refusal :=
  lengthElement 257 3 0 0 s

/-- `LEN_258` (R281): LBASE = 4, LEXT = 0. -/
def execLen258 (s : State) : Host.Outcome State Fault Refusal :=
  lengthElement 258 4 0 0 s

/-- `LEN_259` (R282): LBASE = 5, LEXT = 0. -/
def execLen259 (s : State) : Host.Outcome State Fault Refusal :=
  lengthElement 259 5 0 0 s

/-- `LEN_260` (R283): LBASE = 6, LEXT = 0. -/
def execLen260 (s : State) : Host.Outcome State Fault Refusal :=
  lengthElement 260 6 0 0 s

/-- `LEN_261` (R284): LBASE = 7, LEXT = 0. -/
def execLen261 (s : State) : Host.Outcome State Fault Refusal :=
  lengthElement 261 7 0 0 s

/-- `LEN_262` (R285): LBASE = 8, LEXT = 0. -/
def execLen262 (s : State) : Host.Outcome State Fault Refusal :=
  lengthElement 262 8 0 0 s

/-- `LEN_263` (R286): LBASE = 9, LEXT = 0. -/
def execLen263 (s : State) : Host.Outcome State Fault Refusal :=
  lengthElement 263 9 0 0 s

/-- `LEN_264` (R287): LBASE = 10, LEXT = 0. -/
def execLen264 (s : State) : Host.Outcome State Fault Refusal :=
  lengthElement 264 10 0 0 s

/-- `LEN_265 x` (R288): LBASE = 11, LEXT = 1. -/
def execLen265 (x : BitVec 1) (s : State) : Host.Outcome State Fault Refusal :=
  lengthElement 265 11 1 x.toNat s

/-- `LEN_266 x` (R289): LBASE = 13, LEXT = 1. -/
def execLen266 (x : BitVec 1) (s : State) : Host.Outcome State Fault Refusal :=
  lengthElement 266 13 1 x.toNat s

/-- `LEN_267 x` (R290): LBASE = 15, LEXT = 1. -/
def execLen267 (x : BitVec 1) (s : State) : Host.Outcome State Fault Refusal :=
  lengthElement 267 15 1 x.toNat s

/-- `LEN_268 x` (R291): LBASE = 17, LEXT = 1. -/
def execLen268 (x : BitVec 1) (s : State) : Host.Outcome State Fault Refusal :=
  lengthElement 268 17 1 x.toNat s

/-- `LEN_269 x` (R292): LBASE = 19, LEXT = 2. -/
def execLen269 (x : BitVec 2) (s : State) : Host.Outcome State Fault Refusal :=
  lengthElement 269 19 2 x.toNat s

/-- `LEN_270 x` (R293): LBASE = 23, LEXT = 2. -/
def execLen270 (x : BitVec 2) (s : State) : Host.Outcome State Fault Refusal :=
  lengthElement 270 23 2 x.toNat s

/-- `LEN_271 x` (R294): LBASE = 27, LEXT = 2. -/
def execLen271 (x : BitVec 2) (s : State) : Host.Outcome State Fault Refusal :=
  lengthElement 271 27 2 x.toNat s

/-- `LEN_272 x` (R295): LBASE = 31, LEXT = 2. -/
def execLen272 (x : BitVec 2) (s : State) : Host.Outcome State Fault Refusal :=
  lengthElement 272 31 2 x.toNat s

/-- `LEN_273 x` (R296): LBASE = 35, LEXT = 3. -/
def execLen273 (x : BitVec 3) (s : State) : Host.Outcome State Fault Refusal :=
  lengthElement 273 35 3 x.toNat s

/-- `LEN_274 x` (R297): LBASE = 43, LEXT = 3. -/
def execLen274 (x : BitVec 3) (s : State) : Host.Outcome State Fault Refusal :=
  lengthElement 274 43 3 x.toNat s

/-- `LEN_275 x` (R298): LBASE = 51, LEXT = 3. -/
def execLen275 (x : BitVec 3) (s : State) : Host.Outcome State Fault Refusal :=
  lengthElement 275 51 3 x.toNat s

/-- `LEN_276 x` (R299): LBASE = 59, LEXT = 3. -/
def execLen276 (x : BitVec 3) (s : State) : Host.Outcome State Fault Refusal :=
  lengthElement 276 59 3 x.toNat s

/-- `LEN_277 x` (R300): LBASE = 67, LEXT = 4. -/
def execLen277 (x : BitVec 4) (s : State) : Host.Outcome State Fault Refusal :=
  lengthElement 277 67 4 x.toNat s

/-- `LEN_278 x` (R301): LBASE = 83, LEXT = 4. -/
def execLen278 (x : BitVec 4) (s : State) : Host.Outcome State Fault Refusal :=
  lengthElement 278 83 4 x.toNat s

/-- `LEN_279 x` (R302): LBASE = 99, LEXT = 4. -/
def execLen279 (x : BitVec 4) (s : State) : Host.Outcome State Fault Refusal :=
  lengthElement 279 99 4 x.toNat s

/-- `LEN_280 x` (R303): LBASE = 115, LEXT = 4. -/
def execLen280 (x : BitVec 4) (s : State) : Host.Outcome State Fault Refusal :=
  lengthElement 280 115 4 x.toNat s

/-- `LEN_281 x` (R304): LBASE = 131, LEXT = 5. -/
def execLen281 (x : BitVec 5) (s : State) : Host.Outcome State Fault Refusal :=
  lengthElement 281 131 5 x.toNat s

/-- `LEN_282 x` (R305): LBASE = 163, LEXT = 5. -/
def execLen282 (x : BitVec 5) (s : State) : Host.Outcome State Fault Refusal :=
  lengthElement 282 163 5 x.toNat s

/-- `LEN_283 x` (R306): LBASE = 195, LEXT = 5. -/
def execLen283 (x : BitVec 5) (s : State) : Host.Outcome State Fault Refusal :=
  lengthElement 283 195 5 x.toNat s

/-- `LEN_284 x` (R307): LBASE = 227, LEXT = 5. -/
def execLen284 (x : BitVec 5) (s : State) : Host.Outcome State Fault Refusal :=
  lengthElement 284 227 5 x.toNat s

/-- `LEN_285` (R308): LBASE = 258, LEXT = 0. -/
def execLen285 (s : State) : Host.Outcome State Fault Refusal :=
  lengthElement 285 258 0 0 s

end Sys2Proof.Machine
end

