-- ==== Sys2Proof/Machine/Huffman.lean ====
section
/-! DEFINITION. The Huffman table builder (41_huffman.md rules R180 to R188).  A table is its length array (R186). -/

namespace Sys2Proof.Machine

/-- The status of a build (R184). -/
inductive BuildStatus where
  | empty | ok | incomplete | overSubscribed
  deriving DecidableEq, Repr

/-- The prefix-code check (R183) for the lengths `l + 1 .. l + k`, with `left` before them; `none` where it goes below 0. -/
def prefixCheck (L : List Nat) : (k l left : Nat) → Option Nat
  | 0, _, left => some left
  | k + 1, l, left =>
    if 2 * left < L.count (l + 1) then none else prefixCheck L k (l + 1) (2 * left - L.count (l + 1))

/-- Every length is 0 (R181). -/
def allUnused (L : List Nat) : Bool := L.all (· == 0)

/-- `Build(L, n, MAXB).status` (R184). -/
def buildStatus (L : List Nat) (maxb : Nat) : BuildStatus :=
  match prefixCheck L maxb 0 1 with
  | none => .overSubscribed
  | some left => if allUnused L then .empty else if left = 0 then .ok else .incomplete

/-- No nonzero length, or exactly one and it is 1 (R185). -/
def degenerate (L : List Nat) : Bool :=
  L.filter (· != 0) == [] || L.filter (· != 0) == [1]

/-- `BuildDyn(L, n, MAXB)` (R188): the error it raises, if any. -/
def buildDyn (reject : Bool) (L : List Nat) (maxb : Nat) : Option Err :=
  match buildStatus L maxb with
  | .overSubscribed => some .overSubscribedHuffmanCode
  | .incomplete => if reject && !degenerate L then some .incompleteHuffmanCode else none
  | .empty => none
  | .ok => none

/-- `buildDyn` as a part of a step. -/
def checkTable (reject : Bool) (L : List Nat) (maxb : Nat) : Except Stop Unit :=
  match buildDyn reject L maxb with
  | some e => .error (.raise e)
  | none => .ok ()

end Sys2Proof.Machine
end

