-- ==== Sys2Proof/Machine/Internal.lean ====
section
/-! DEFINITION. The steps that read no element: FIXED_SETUP (42_block_decoder.md rule R229), DYN_CLBUILD (R234),
DYN_BUILD (R241) and COPY (44_sliding_window.md rule R374). -/

namespace Sys2Proof.Machine

/-- Step FIXED_SETUP (R229). -/
def stepFixedSetup (s : State) : Host.Outcome State Fault Refusal :=
  finish s (.ok { s with tblSel := true, fsm := Fsm.sym.code })

/-- Step DYN_CLBUILD (R234). -/
def stepDynClbuild (s : State) : Host.Outcome State Fault Refusal :=
  finish s do
    checkTable s.cfg.rejectIncomplete s.clTable 7
    pure { s with idx := 0, fsm := Fsm.dynLens.code }

/-- Step DYN_BUILD (R241): the literal/length table is checked first, then the distance table. -/
def stepDynBuild (s : State) : Host.Outcome State Fault Refusal :=
  finish s do
    if 316 < s.lensTotal then throw (.fault .tableIndex)
    else
      checkTable s.cfg.rejectIncomplete (natLens s.litLenFromLens) 15
      checkTable s.cfg.rejectIncomplete (natLens s.distLenFromLens) 15
      pure { s with
        litLen := s.litLenFromLens
        distLen := s.distLenFromLens
        tblSel := false
        fsm := Fsm.sym.code }

/-- Step COPY (R374): the byte is read before the same step writes the window. -/
def stepCopy (s : State) : Host.Outcome State Fault Refusal :=
  finish s do
    let s₁ ← produce (s.winBack s.mdist) s
    pure { s₁ with rem := s.rem - 1, fsm := if s.rem - 1 = 0 then Fsm.sym.code else Fsm.copy.code }

end Sys2Proof.Machine
end

