-- ==== Sys2Proof/Machine/Fetch.lean ====
section
/-! DEFINITION. Which element comes next, the step of each FSM state (45_stream_controller.md rule R403), and how a
word of the opcode table is placed where the next step decodes it. -/

namespace Sys2Proof.Machine

/-- What the decoder reads at the cursor in context `c`.  28 bits hold the longest element: a 15-bit code and 13
extra bits (30_encoding.md rule R106). -/
def State.fetch (s : State) (c : Ctx) : Except DecodeError (Instr × List Bool) := decode c (s.peek 28)

/-- The step of a state that reads an element: the element's meaning, or UnsupportedSymbol where the bits are no code
(41_huffman.md rule R190). -/
def runElement (c : Ctx) (s : State) : Host.Outcome State Fault Refusal :=
  match s.fetch c with
  | .ok p => exec p.1 s
  | .error .unassignedCode => finish s (.error (.raise .unsupportedSymbol))
  | .error .noSuchSymbol => .fault .noSuchSymbol
  | .error .outOfBits => .fault .bitReaderMisuse

/-- The step of FSM state `f` (10_state.md rule R30).  IDLE, DONE and ERROR have no step and keep all state (R403,
60_exceptions.md rule R465). -/
def stepOf (f : Fsm) (s : State) : Host.Outcome State Fault Refusal :=
  match s.ctx f with
  | some c => runElement c s
  | none =>
    match f with
    | .fixedSetup => stepFixedSetup s
    | .dynClbuild => stepDynClbuild s
    | .dynBuild => stepDynBuild s
    | .copy => stepCopy s
    | _ => .next s

/-- One step of the machine: reset wins over everything, START is accepted at rest alone, else the step of the FSM
state (R402, R403; 60_exceptions.md rule R455). -/
def stepCore (s : State) : Host.Outcome State Fault Refusal :=
  if s.pins.rst then .next s.applyReset
  else if s.pins.start && s.atRest then .next s.start
  else
    match Fsm.ofCode s.fsm with
    | none => .fault .fsmUnused
    | some f => stepOf f s

/-- The bytes of a list of stream bits (20_memory.md rule R70); a last group of fewer than 8 bits ends the list. -/
def bytesOf : (k : Nat) → List Bool → List Byte
  | 0, _ => []
  | k + 1, bits => BitVec.ofNat 8 (bitsVal (bits.take 8)) :: bytesOf k (bits.drop 8)

/-- The array of one table word's symbol: code `0` for `s` alone. -/
def soleVector (n w : Nat) (s : Nat) : Vector (BitVec w) n :=
  (Vector.replicate n 0).setIfInBounds s 1

/-- The FSM state and the tables with which the next step decodes a row (notes/assumptions/13.md, 14.md). -/
def State.selectRow (r : TableRow) (s : State) : State :=
  match r with
  | .hdr _ => s.goto .hdr
  | .cl t => { s.goto .dynLens with clLen := soleVector 19 3 t, nlit := 257, ndist := 1, idx := 0 }
  | .litLen _ => { s.goto .sym with tblSel := true }
  | .dist t =>
    if t < 30 then { s.goto .distSym with tblSel := true }
    else { s.goto .distSym with tblSel := false, distLen := soleVector 32 4 t }
  | .storedLen _ => s.goto .storedLen

/-- A payload at the cursor of a fresh bit reader, as START leaves it. -/
def State.placeBits (bits : List Bool) (s : State) : State :=
  { s with
    src := Memory.ofBytes 0 (bytesOf (bits.length / 8) bits)
    srcLen := bits.length / 8
    inPos := 0
    padCnt := 0
    pads := 0
    bitBuf := 0
    bitCnt := 0 }

/-- `s` with the host's reset and start released and the table word's row at the cursor. -/
def State.withTableWord (s : State) (nbits w : Nat) : State :=
  match tableRow nbits w with
  | none => s
  | some r => { (s.selectRow r).placeBits r.bits with pins := { s.pins with rst := false, start := false } }

end Sys2Proof.Machine
end

