-- ==== Sys2Proof/Machine/HostPort.lean ====
section
/-! DEFINITION. The host's side (45_stream_controller.md rule R410): what the host may do between two steps, and the
output port it samples (20_memory.md rule R76). -/

namespace Sys2Proof.Machine

/-- What the host may do between two steps. -/
inductive HostMove where
  /-- Fill `SRC` from offset 0 (70_reset_and_hazards.md rule R494, step 2). -/
  | load (bytes : List Byte)
  /-- Drive the input levels (10_state.md rule R61). -/
  | drive (p : Pins)
  deriving DecidableEq, Repr

/-- A host move; changing `SRC` during a call is refused (R501, 93_implementation_defined.md U5). -/
def State.hostMove (m : HostMove) (s : State) : Host.Outcome State Fault Refusal :=
  match m with
  | .drive p => .next { s with pins := p }
  | .load bytes =>
    if s.busy then .refused .sourceChangedDuringCall else .next { s with src := Memory.ofBytes 0 bytes }

/-- Host moves, then one step. -/
def cycle : List HostMove → State → Host.Outcome State Fault Refusal
  | [], s => step s
  | m :: ms, s =>
    match s.hostMove m with
    | .next t => cycle ms t
    | .fault f => .fault f
    | .refused r => .refused r

/-- A schedule of host moves, one list before each step: any pattern of the levels is such a schedule (R410). -/
def runCycles : List (List HostMove) → State → Host.Outcome State Fault Refusal
  | [], s => .next s
  | ms :: rest, s =>
    match cycle ms s with
    | .next t => runCycles rest t
    | .fault f => .fault f
    | .refused r => .refused r

/-- The host's state with `out_ready` = 1. -/
def State.ready (s : State) : State := { s with pins := { s.pins with outReady := true } }

/-- The output port (R76): `some b` is `out_valid` = 1 with `out_data` = b, the byte that the next step transfers once
`out_ready` = 1; `none` is `out_valid` = 0 (notes/assumptions/18.md). -/
def State.outPort (s : State) : Option Byte :=
  match step s.ready with
  | .next t => (t.out.drop s.out.length).head?
  | .fault _ => none
  | .refused _ => none

end Sys2Proof.Machine
end

