-- ==== Sys2Proof/Safety.lean ====
section
/-! DEFINITION. What claims about the core are stated in: the invariant of a run, the tables of the length and distance
symbols as 93_implementation_defined.md G3 lists them, and the byte-by-byte copy of 44_sliding_window.md rule R373. -/

namespace Sys2Proof.Machine

/-! ### The invariant -/

/-- Stream bit `k` (20_memory.md rule R70): bit k mod 8 of source byte k div 8, and a zero pad bit past the end of the
source (10_state.md rule R38, 40_bit_reader.md rule R152). -/
def State.sourceBit (s : State) (k : Nat) : Bool :=
  decide (k / 8 < s.srcLen) && (Memory.read s.src (k / 8)).getLsbD (k % 8)

/-- The bit reader at a step boundary (10_state.md rules R34 to R38, 40_bit_reader.md rules R155, R160).  The staged bits
are the source's during a call; between calls the host may change `SRC`. -/
structure State.ReaderInv (s : State) : Prop where
  bitCnt_le : s.bitCnt.toNat ≤ 23
  bitBuf_lt : s.bitBuf.toNat < 2 ^ s.bitCnt.toNat
  inPos_le : s.inPos ≤ s.srcLen
  srcLen_lt : s.srcLen < 2 ^ s.cfg.srcLenW
  padCnt_eq : s.padCnt.toNat = min s.pads 3
  padded_at_end : s.pads ≠ 0 → s.inPos = s.srcLen
  staged_le : s.bitCnt.toNat ≤ 8 * (s.inPos + s.pads)
  strict_unread : s.strict = true → 8 * s.padCnt.toNat ≤ s.bitCnt.toNat
  staged_eq : s.busy = true → ∀ k < s.bitCnt.toNat, s.bitBuf.getLsbD k = s.sourceBit (s.cur + k)

/-- The window, the counters and the output (10_state.md rules R54 to R57, 44_sliding_window.md rules R370, R376):
the window holds the last `HIST_LEN` bytes of the output. -/
structure State.WindowInv (s : State) : Prop where
  win_wf : Memory.wf s.win = true
  win_below : Memory.below 32768 s.win = true
  wpos_eq : s.wpos.toNat = s.out.length % 32768
  histLen_eq : s.histLen.toNat = min s.out.length 32768
  outCount_eq : s.outCount = s.out.length % 2 ^ s.cfg.outCountW
  history : ∀ k < s.histLen.toNat,
    Memory.read s.win ((s.out.length - 1 - k) % 32768) = s.out.getD (s.out.length - 1 - k) 0

/-- The counts of a DYNAMIC header are legal (10_state.md rule R45). -/
def State.countsLegal (s : State) : Prop :=
  257 ≤ s.nlit.toNat ∧ s.nlit.toNat ≤ 286 ∧ 1 ≤ s.ndist.toNat ∧ s.ndist.toNat ≤ 30

/-- The tables the symbol loop decodes with: no code set is over-subscribed, and the symbols without a meaning have
no code in a DYNAMIC block (41_huffman.md rule R188, 43_symbols.md rules R278, R340). -/
def State.tablesLegal (s : State) : Prop :=
  s.tblSel = false →
    buildStatus (natLens s.litLen) 15 ≠ .overSubscribed ∧ buildStatus (natLens s.distLen) 15 ≠ .overSubscribed ∧
      codeLen s.litTable 286 = 0 ∧ codeLen s.litTable 287 = 0 ∧
      codeLen s.distTable 30 = 0 ∧ codeLen s.distTable 31 = 0

/-- What each FSM state finds in the registers its step reads (42_block_decoder.md, 43_symbols.md,
44_sliding_window.md: "entered with"). -/
def State.StateInv (s : State) : Fsm → Prop
  | .storedCopy => s.rem ≠ 0
  | .dynCllen => s.countsLegal ∧ 4 ≤ s.nclen.toNat ∧ s.nclen.toNat ≤ 19 ∧ s.idx.toNat < s.nclen.toNat
  | .dynClbuild => s.countsLegal
  | .dynLens => s.countsLegal ∧ s.idx.toNat < s.lensTotal ∧ buildStatus s.clTable 7 ≠ .overSubscribed
  | .dynBuild => s.countsLegal ∧ s.idx.toNat = s.lensTotal
  | .sym => s.tablesLegal
  | .lenExtra => s.tablesLegal ∧ 257 ≤ s.lsym.toNat ∧ s.lsym.toNat ≤ 285
  | .distSym => s.tablesLegal ∧ 3 ≤ s.mlen.toNat ∧ s.mlen.toNat ≤ 258
  | .distExtra => s.tablesLegal ∧ 3 ≤ s.mlen.toNat ∧ s.mlen.toNat ≤ 258 ∧ s.dsym.toNat ≤ 29
  | .copy => s.tablesLegal ∧ 1 ≤ s.rem.toNat ∧ s.rem.toNat ≤ 258 ∧ 1 ≤ s.mdist.toNat ∧
      s.mdist.toNat ≤ s.histLen.toNat
  | _ => True

/-- The invariant every step keeps. -/
structure State.Inv (s : State) : Prop where
  config : s.cfg.legal
  reader : s.ReaderInv
  window : s.WindowInv
  src_wf : Memory.wf s.src = true
  btype_ne : s.btype ≠ 3
  error_code : s.errCode ≠ 0 ↔ s.fsm = Fsm.error.code
  state : ∃ f, Fsm.ofCode s.fsm = some f ∧ s.StateInv f

/-! ### The symbol tables of 93_implementation_defined.md G3 -/

/-- LBASE for symbols 257..285. -/
def lbase : List Nat :=
  [3, 4, 5, 6, 7, 8, 9, 10, 11, 13, 15, 17, 19, 23, 27, 31, 35, 43, 51, 59, 67, 83, 99, 115, 131, 163, 195, 227, 258]

/-- LEXT for symbols 257..285: "0 × 8, 1 × 4, 2 × 4, 3 × 4, 4 × 4, 5 × 4, 0". -/
def lext : List Nat :=
  List.replicate 8 0 ++ List.replicate 4 1 ++ List.replicate 4 2 ++ List.replicate 4 3 ++ List.replicate 4 4 ++
    List.replicate 4 5 ++ [0]

/-- DBASE for symbols 0..29. -/
def dbase : List Nat :=
  [1, 2, 3, 4, 5, 7, 9, 13, 17, 25, 33, 49, 65, 97, 129, 193, 257, 385, 513, 769, 1025, 1537, 2049, 3073, 4097, 6145,
    8193, 12289, 16385, 24577]

/-- LBASE of length symbol `s`. -/
def lbaseOf (s : Nat) : Nat := lbase.getD (s - 257) 0

/-- LEXT of length symbol `s`. -/
def lextOf (s : Nat) : Nat := lext.getD (s - 257) 0

/-- DBASE of distance symbol `t`. -/
def dbaseOf (t : Nat) : Nat := dbase.getD t 0

/-- DEXT of distance symbol `t`: "DEXT[t] = max(0, ⌊t/2⌋ − 1)". -/
def dextOf (t : Nat) : Nat := t / 2 - 1

/-- The value of an element's extra bits (30_encoding.md rule R108). -/
def extraValue (i : Instr) : Nat := bitsVal i.extraBits

/-! ### Runs -/

/-- `k` steps, stopping at a fault or a refusal. -/
def runSteps : Nat → State → Host.Outcome State Fault Refusal
  | 0, s => .next s
  | k + 1, s =>
    match step s with
    | .next t => runSteps k t
    | .fault f => .fault f
    | .refused r => .refused r

/-- The byte-by-byte copy of `l` bytes from distance `d` (44_sliding_window.md rule R373): each byte is read from the
output as extended so far. -/
def copyBytes (d : Nat) : (l : Nat) → List Byte → List Byte
  | 0, o => o
  | l + 1, o => copyBytes d l (o ++ [o.getD (o.length - d) 0])

/-- `LENS[i .. i+r-1] <- v` as 42_block_decoder.md rule R235 writes it, every other entry unchanged. -/
def lensWith (lens : Vector (BitVec 4) 316) (v : BitVec 4) (i r : Nat) : Vector (BitVec 4) 316 :=
  Vector.ofFn fun k : Fin 316 => if i ≤ k.val ∧ k.val < i + r then v else lens[k.val]

/-- The part of the code space a length array's codes use, in units of 2^(-MAXB) (41_huffman.md rule R183). -/
def codeSpace (L : List Nat) (maxb : Nat) : Nat := ((L.filter (· != 0)).map fun x => 2 ^ (maxb - x)).sum

/-- The host neither resets nor stalls the core. -/
def State.flowing (s : State) : Prop := s.pins.rst = false ∧ s.pins.outReady = true

/-- Neither reset nor an accepted START: the step is the FSM state's own. -/
def State.ownStep (s : State) : Prop := s.pins.rst = false ∧ (s.pins.start && s.atRest) = false

/-- The errors each state's step can raise (60_exceptions.md rule R451). -/
def errorsOf : Fsm → List Err
  | .hdr => [.truncatedInput, .invalidBlockType]
  | .storedLen | .storedCopy | .dynCllen | .lenExtra => [.truncatedInput]
  | .storedNlen => [.truncatedInput, .invalidStoredBlockChecksum]
  | .dynHdr | .dynLens | .sym | .distSym => [.truncatedInput, .unsupportedSymbol]
  | .dynClbuild | .dynBuild => [.overSubscribedHuffmanCode, .incompleteHuffmanCode]
  | .distExtra => [.truncatedInput, .invalidBackReference]
  | .storedAlign | .fixedSetup | .copy | .idle | .done | .error => []

/-- The table of a context has lengths up to MAXB and is not over-subscribed, so its codes are a prefix code
(41_huffman.md rule R184). -/
def tableSound (L : List Nat) (maxb : Nat) : Prop :=
  buildStatus L maxb ≠ .overSubscribed ∧ ∀ x ∈ L, x ≤ maxb

/-- The context's table, if it has one, is sound. -/
def ctxSound : Ctx → Prop
  | .clSym L => tableSound L 7
  | .litLenSym L => tableSound L 15
  | .distSym L => tableSound L 15
  | _ => True

/-- What the host can observe of a state: STATUS, `OUT_COUNT` and the bytes received (60_exceptions.md rule R464). -/
def State.observed (s : State) : BitVec 32 × Nat × List Byte := (s.status, s.outCount, s.out)

end Sys2Proof.Machine
end

