-- ==== Sys2Proof/Certificates/Slice0/Obligations.lean ====
section
/-! DEFINITION. The statements about the core.

In statements about one step, `s.pins.rst = false` says that reset is not applied and `s.ownStep` that neither reset
nor an accepted START takes the step; `s.consumed m n` is the state after `NeedBits(m)` and `DropBits(n)`, and
`.truncated = false` that the drop does not raise TruncatedInput. -/

open Sys2Proof Sys2Proof.Machine

/-! ### The step of each FSM state is its rule -/

/-- 42_block_decoder.md rule R220. -/
def Obligations.HdrStepFollowsRule : Prop :=
  ∀ s : State, s.pins.rst = false → s.fsm = Fsm.hdr.code →
    step s = finish s do
      let f ← readBits 1 s
      let t ← readBits 2 f.2
      if t.1 = 3 then throw (.raise .invalidBlockType)
      else
        pure { t.2 with
          bfinal := f.1 == 1
          btype := BitVec.ofNat 2 t.1
          fsm := (if t.1 = 0 then Fsm.storedAlign else if t.1 = 1 then Fsm.fixedSetup else Fsm.dynHdr).code }

/-- 42_block_decoder.md rule R224 with 40_bit_reader.md rule R157.  That no error is reached and that `CUR` is then a
multiple of 8 are inferences the spec marks as its own ("Errors: none reachable [derived: from 40_bit_reader.md rule
R157]"). -/
def Obligations.StoredAlignStepDropsToByteBoundary : Prop :=
  ∀ s : State, s.Inv → s.pins.rst = false → s.fsm = Fsm.storedAlign.code →
    step s = .next ((s.shiftOut (s.bitCnt.toNat % 8)).goto .storedLen) ∧
      (s.shiftOut (s.bitCnt.toNat % 8)).cur % 8 = 0

/-- 42_block_decoder.md rule R225. -/
def Obligations.StoredLenStepFollowsRule : Prop :=
  ∀ s : State, s.pins.rst = false → s.fsm = Fsm.storedLen.code →
    step s = finish s do
      let v ← readBits 16 s
      pure { v.2 with storedLen := BitVec.ofNat 16 v.1, fsm := Fsm.storedNlen.code }

/-- 42_block_decoder.md rule R226. -/
def Obligations.StoredNlenStepFollowsRule : Prop :=
  ∀ s : State, s.pins.rst = false → s.fsm = Fsm.storedNlen.code →
    step s = finish s do
      let v ← readBits 16 s
      if s.storedLen.toNat ≠ 65535 - v.1 then throw (.raise .invalidStoredBlockChecksum)
      else if s.storedLen = 0 then pure (v.2.goto (if s.bfinal then .done else .hdr))
      else pure { v.2 with rem := s.storedLen, fsm := Fsm.storedCopy.code }

/-- 42_block_decoder.md rule R227. -/
def Obligations.StoredCopyStepFollowsRule : Prop :=
  ∀ s : State, s.pins.rst = false → s.fsm = Fsm.storedCopy.code → s.rem ≠ 0 →
    step s = finish s do
      let v ← readBits 8 s
      let p ← produce (BitVec.ofNat 8 v.1) v.2
      let q := { p with rem := s.rem - 1 }
      pure (if s.rem = 1 then q.goto (if s.bfinal then .done else .hdr) else q)

/-- 42_block_decoder.md rules R229 and R234. -/
def Obligations.SetupStepsReadNoBits : Prop :=
  ∀ s : State, s.pins.rst = false →
    (s.fsm = Fsm.fixedSetup.code → step s = .next { s with tblSel := true, fsm := Fsm.sym.code }) ∧
    (s.fsm = Fsm.dynClbuild.code →
      step s =
        match buildDyn s.cfg.rejectIncomplete s.clTable 7 with
        | some e => .next (s.raise e)
        | none => .next { s with idx := 0, fsm := Fsm.dynLens.code })

/-- 42_block_decoder.md rules R231 and R232. -/
def Obligations.DynHdrStepFollowsRule : Prop :=
  ∀ s : State, s.pins.rst = false → s.fsm = Fsm.dynHdr.code →
    step s = finish s do
      let hl ← readBits 5 s
      let hd ← readBits 5 hl.2
      let hc ← readBits 4 hd.2
      if 29 < hl.1 ∨ 29 < hd.1 then throw (.raise .unsupportedSymbol)
      else
        pure { hc.2 with
          nlit := BitVec.ofNat 9 (hl.1 + 257)
          ndist := BitVec.ofNat 6 (hd.1 + 1)
          nclen := BitVec.ofNat 5 (hc.1 + 4)
          clLen := Vector.replicate 19 0
          idx := 0
          fsm := Fsm.dynCllen.code }

/-- 42_block_decoder.md rule R233, with PERM of 30_encoding.md rule R104. -/
def Obligations.DynCllenStepFollowsRule : Prop :=
  ∀ s : State, s.pins.rst = false → s.fsm = Fsm.dynCllen.code → s.idx.toNat < s.nclen.toNat → s.nclen.toNat ≤ 19 →
    step s = finish s do
      let v ← readBits 3 s
      pure { v.2 with
        clLen := s.clLen.setIfInBounds
          ([16, 17, 18, 0, 8, 7, 9, 6, 10, 5, 11, 4, 12, 3, 13, 2, 14, 1, 15].getD s.idx.toNat 0) (BitVec.ofNat 3 v.1)
        idx := s.idx + 1
        fsm := (if s.idx.toNat + 1 = s.nclen.toNat then Fsm.dynClbuild else Fsm.dynCllen).code }

/-- 42_block_decoder.md rules R235 to R240. -/
def Obligations.DynLensStepFollowsRule : Prop :=
  ∀ s : State, s.pins.rst = false → s.fsm = Fsm.dynLens.code → s.idx.toNat < s.lensTotal → s.lensTotal ≤ 316 →
    let put (v : BitVec 4) (r : Nat) (t : State) : Except Stop State :=
      if s.lensTotal < s.idx.toNat + r then throw (.raise .unsupportedSymbol)
      else
        pure { t with
          lens := lensWith s.lens v s.idx.toNat r
          idx := BitVec.ofNat 9 (s.idx.toNat + r)
          fsm := (if s.idx.toNat + r = s.lensTotal then Fsm.dynBuild else Fsm.dynLens).code }
    step s = finish s do
      let q ← readCode s.clTable 7 s
      if q.1 ≤ 15 then put (BitVec.ofNat 4 q.1) 1 q.2
      else if q.1 = 16 then
        if s.idx = 0 then throw (.raise .unsupportedSymbol)
        else
          let x ← readBits 2 q.2
          put (s.lensAt (s.idx.toNat - 1)) (3 + x.1) x.2
      else if q.1 = 17 then
        let x ← readBits 3 q.2
        put 0 (3 + x.1) x.2
      else
        let x ← readBits 7 q.2
        put 0 (11 + x.1) x.2

/-- 42_block_decoder.md rule R241. -/
def Obligations.DynBuildStepFollowsRule : Prop :=
  ∀ s : State, s.pins.rst = false → s.fsm = Fsm.dynBuild.code → s.countsLegal →
    ∃ (lit : Vector (BitVec 4) 288) (dist : Vector (BitVec 4) 32),
      (∀ i < 288, lit.toList.getD i 0 = if i < s.nlit.toNat then s.lensAt i else 0) ∧
      (∀ i < 32, dist.toList.getD i 0 = if i < s.ndist.toNat then s.lensAt (s.nlit.toNat + i) else 0) ∧
      step s =
        match buildDyn s.cfg.rejectIncomplete (natLens lit) 15 with
        | some e => .next (s.raise e)
        | none =>
          match buildDyn s.cfg.rejectIncomplete (natLens dist) 15 with
          | some e => .next (s.raise e)
          | none => .next { s with litLen := lit, distLen := dist, tblSel := false, fsm := Fsm.sym.code }

/-- 43_symbols.md rule R270. -/
def Obligations.SymStepFollowsRule : Prop :=
  ∀ s : State, s.pins.rst = false → s.fsm = Fsm.sym.code →
    step s = finish s do
      let q ← readCode (if s.tblSel then fixedLitLen else natLens s.litLen) 15 s
      if q.1 ≤ 255 then produce (BitVec.ofNat 8 q.1) q.2
      else if q.1 = 256 then pure (q.2.goto (if s.bfinal then .done else .hdr))
      else if q.1 ≤ 285 then pure { q.2 with lsym := BitVec.ofNat 9 q.1, fsm := Fsm.lenExtra.code }
      else throw (.raise .unsupportedSymbol)

/-- 43_symbols.md rule R272, with LBASE and LEXT of 93_implementation_defined.md G3. -/
def Obligations.LenExtraStepFollowsRule : Prop :=
  ∀ s : State, s.pins.rst = false → s.fsm = Fsm.lenExtra.code → 257 ≤ s.lsym.toNat → s.lsym.toNat ≤ 285 →
    step s = finish s do
      let x ← readBits (lextOf s.lsym.toNat) s
      pure { x.2 with mlen := BitVec.ofNat 9 (lbaseOf s.lsym.toNat + x.1), fsm := Fsm.distSym.code }

/-- 43_symbols.md rule R273. -/
def Obligations.DistSymStepFollowsRule : Prop :=
  ∀ s : State, s.pins.rst = false → s.fsm = Fsm.distSym.code →
    step s = finish s do
      let q ← readCode (if s.tblSel then fixedDistLen else natLens s.distLen) 15 s
      if 30 ≤ q.1 then throw (.raise .unsupportedSymbol)
      else pure { q.2 with dsym := BitVec.ofNat 5 q.1, fsm := Fsm.distExtra.code }

/-- 43_symbols.md rule R274, with DBASE and DEXT of 93_implementation_defined.md G3. -/
def Obligations.DistExtraStepFollowsRule : Prop :=
  ∀ s : State, s.pins.rst = false → s.fsm = Fsm.distExtra.code → s.dsym.toNat ≤ 29 →
    step s = finish s do
      let x ← readBits (dextOf s.dsym.toNat) s
      if s.histLen.toNat < dbaseOf s.dsym.toNat + x.1 then throw (.raise .invalidBackReference)
      else
        pure { x.2 with
          mdist := BitVec.ofNat 16 (dbaseOf s.dsym.toNat + x.1)
          rem := s.mlen.setWidth 16
          fsm := Fsm.copy.code }

/-- 44_sliding_window.md rules R371 and R374: the byte at `(WPOS - d) mod 32768`, read before the window is written. -/
def Obligations.CopyStepFollowsRule : Prop :=
  ∀ s : State, s.pins.rst = false → s.fsm = Fsm.copy.code → s.rem ≠ 0 → 1 ≤ s.mdist.toNat → s.mdist.toNat ≤ 32768 →
    step s = finish s do
      let p ← produce (Memory.read s.win ((s.wpos.toNat + 32768 - s.mdist.toNat) % 32768)) s
      pure { p with rem := s.rem - 1, fsm := (if s.rem = 1 then Fsm.sym else Fsm.copy).code }

/-! ### Every element completes -/

/-- `HDR.STORED`, `HDR.FIXED`, `HDR.DYNAMIC` and `HDR.RESERVED`: 42_block_decoder.md rules R220, R222, R223, R228, R230. -/
def Obligations.HeaderElementsComplete : Prop :=
  ∀ (s : State) (f : Bool), s.fsm = Fsm.hdr.code → (s.consumed 1 1).truncated = false →
    ((s.consumed 1 1).consumed 2 2).truncated = false →
      let t := (s.consumed 1 1).consumed 2 2
      exec (.hdrStored f) s = .next { t with bfinal := f, btype := 0, fsm := Fsm.storedAlign.code } ∧
      exec (.hdrFixed f) s = .next { t with bfinal := f, btype := 1, fsm := Fsm.fixedSetup.code } ∧
      exec (.hdrDynamic f) s = .next { t with bfinal := f, btype := 2, fsm := Fsm.dynHdr.code } ∧
      exec (.hdrReserved f) s = .next (s.raise .invalidBlockType)

/-- `STORED.ALIGN`, `STORED.LEN`, `STORED.NLEN` and `STORED.BYTE`: 42_block_decoder.md rules R224 to R227. -/
def Obligations.StoredElementsComplete : Prop :=
  ∀ s : State,
    (s.fsm = Fsm.storedAlign.code → (s.shiftOut (s.bitCnt.toNat % 8)).truncated = false →
      exec .storedAlign s = .next ((s.shiftOut (s.bitCnt.toNat % 8)).goto .storedLen)) ∧
    (∀ len : BitVec 16, s.fsm = Fsm.storedLen.code → (s.consumed 16 16).truncated = false →
      exec (.storedLen len) s = .next { s.consumed 16 16 with storedLen := len, fsm := Fsm.storedNlen.code }) ∧
    (∀ nlen : BitVec 16, s.fsm = Fsm.storedNlen.code → (s.consumed 16 16).truncated = false →
      exec (.storedNlen nlen) s = .next
        (if s.storedLen ≠ ~~~nlen then s.raise .invalidStoredBlockChecksum
        else if s.storedLen = 0 then (s.consumed 16 16).goto (if s.bfinal then .done else .hdr)
        else { s.consumed 16 16 with rem := s.storedLen, fsm := Fsm.storedCopy.code })) ∧
    (∀ b : Byte, s.fsm = Fsm.storedCopy.code → s.rem ≠ 0 → s.pins.outReady = true →
      (s.consumed 8 8).truncated = false →
      exec (.storedByte b) s = .next
        (if s.rem = 1 then
          { ((s.consumed 8 8).winPut b).outPush b with
            rem := 0, fsm := (if s.bfinal then Fsm.done else Fsm.hdr).code }
        else { ((s.consumed 8 8).winPut b).outPush b with rem := s.rem - 1 }))

/-- `DYN.HDR` and `DYN.CLLEN`: 42_block_decoder.md rules R231 to R233. -/
def Obligations.DynamicHeaderElementsComplete : Prop :=
  ∀ s : State,
    (∀ (hl hd : BitVec 5) (hc : BitVec 4), s.fsm = Fsm.dynHdr.code → (s.consumed 5 5).truncated = false →
      ((s.consumed 5 5).consumed 5 5).truncated = false →
      (((s.consumed 5 5).consumed 5 5).consumed 4 4).truncated = false →
      exec (.dynHdr hl hd hc) s = .next
        (if 29 < hl.toNat ∨ 29 < hd.toNat then s.raise .unsupportedSymbol
        else
          { ((s.consumed 5 5).consumed 5 5).consumed 4 4 with
            nlit := BitVec.ofNat 9 (hl.toNat + 257), ndist := BitVec.ofNat 6 (hd.toNat + 1)
            nclen := BitVec.ofNat 5 (hc.toNat + 4), clLen := Vector.replicate 19 0, idx := 0
            fsm := Fsm.dynCllen.code })) ∧
    (∀ v : BitVec 3, s.fsm = Fsm.dynCllen.code → s.idx.toNat < s.nclen.toNat → s.nclen.toNat ≤ 19 →
      (s.consumed 3 3).truncated = false →
      exec (.dynCllen v) s = .next
        { s.consumed 3 3 with
          clLen := s.clLen.setIfInBounds (perm.getD s.idx.toNat 0) v
          idx := s.idx + 1
          fsm := (if s.idx.toNat + 1 = s.nclen.toNat then Fsm.dynClbuild else Fsm.dynCllen).code })

/-- `CL_LEN n`, `CL_REP16 r`, `CL_ZERO17 r` and `CL_ZERO18 r`: 42_block_decoder.md rules R235 to R240.  The entries of
`LENS` from the old `IDX` up to the new one are the value, every other entry is as before. -/
def Obligations.CodeLengthElementsComplete : Prop :=
  ∀ (i : Instr) (s : State) (sym e r : Nat) (v : BitVec 4),
    ((∃ n : BitVec 4, i = .clLen n ∧ sym = n.toNat ∧ e = 0 ∧ r = 1 ∧ v = n) ∨
      (i = .clRep16 r ∧ sym = 16 ∧ e = 2 ∧ s.idx ≠ 0 ∧ v = s.lensAt (s.idx.toNat - 1)) ∨
      (i = .clZero17 r ∧ sym = 17 ∧ e = 3 ∧ v = 0) ∨ (i = .clZero18 r ∧ sym = 18 ∧ e = 7 ∧ v = 0)) →
    s.fsm = Fsm.dynLens.code → codeLen s.clTable sym ≠ 0 → s.lensTotal ≤ 316 → s.idx.toNat + r ≤ s.lensTotal →
    (s.consumed 7 (codeLen s.clTable sym)).truncated = false →
    ((s.consumed 7 (codeLen s.clTable sym)).consumed e e).truncated = false →
      let t : State :=
        { (s.consumed 7 (codeLen s.clTable sym)).consumed e e with
          lens := lensWith s.lens v s.idx.toNat r
          idx := BitVec.ofNat 9 (s.idx.toNat + r)
          fsm := (if s.idx.toNat + r = s.lensTotal then Fsm.dynBuild else Fsm.dynLens).code }
      exec i s = .next t ∧ (∀ k, s.idx.toNat ≤ k → k < s.idx.toNat + r → t.lensAt k = v) ∧
        ∀ k, k < s.idx.toNat ∨ s.idx.toNat + r ≤ k → t.lensAt k = s.lensAt k

/-- `LIT b` and `EOB`: 43_symbols.md rules R276 and R277. -/
def Obligations.LiteralAndEobComplete : Prop :=
  ∀ (s : State), s.fsm = Fsm.sym.code →
    (∀ b : Byte, s.pins.outReady = true → codeLen s.litTable b.toNat ≠ 0 →
      (s.consumed 15 (codeLen s.litTable b.toNat)).truncated = false →
      exec (.lit b) s = .next (((s.consumed 15 (codeLen s.litTable b.toNat)).winPut b).outPush b)) ∧
    (codeLen s.litTable 256 ≠ 0 → (s.consumed 15 (codeLen s.litTable 256)).truncated = false →
      exec .eob s = .next ((s.consumed 15 (codeLen s.litTable 256)).goto (if s.bfinal then .done else .hdr)))

/-- `LITLEN_286`, `LITLEN_287`, `DISTSYM_30` and `DISTSYM_31`: their own effect is UnsupportedSymbol (43_symbols.md rules
R278, R340). -/
def Obligations.MeaninglessSymbolsRaise : Prop :=
  ∀ (i : Instr) (s : State) (L : List Nat) (sym : Nat),
    ((i = .litlen286 ∧ s.fsm = Fsm.sym.code ∧ L = s.litTable ∧ sym = 286) ∨
      (i = .litlen287 ∧ s.fsm = Fsm.sym.code ∧ L = s.litTable ∧ sym = 287) ∨
      (i = .distsym30 ∧ s.fsm = Fsm.distSym.code ∧ L = s.distTable ∧ sym = 30) ∨
      (i = .distsym31 ∧ s.fsm = Fsm.distSym.code ∧ L = s.distTable ∧ sym = 31)) →
    (codeLen L sym = 0 ∨ (s.consumed 15 (codeLen L sym)).truncated = false) →
      exec i s = .next (s.raise .unsupportedSymbol)

/-- The 29 length elements `LEN_257` to `LEN_285`, in SYM and in LEN_EXTRA (43_symbols.md rules R270, R272, R280 to R308). -/
def Obligations.LengthElementsComplete : Prop :=
  ∀ (i : Instr) (s : State) (sym : Nat), i.litLenSymbol = some sym → 257 ≤ sym → sym ≤ 285 →
    (s.fsm = Fsm.sym.code → codeLen s.litTable sym ≠ 0 →
      (s.consumed 15 (codeLen s.litTable sym)).truncated = false →
      exec i s = .next
        { s.consumed 15 (codeLen s.litTable sym) with lsym := BitVec.ofNat 9 sym, fsm := Fsm.lenExtra.code }) ∧
    (s.fsm = Fsm.lenExtra.code → s.lsym.toNat = sym → (s.consumed (lextOf sym) (lextOf sym)).truncated = false →
      exec i s = .next
        { s.consumed (lextOf sym) (lextOf sym) with
          mlen := BitVec.ofNat 9 (lbaseOf sym + extraValue i), fsm := Fsm.distSym.code })

/-- The 30 distance elements `DIST_0` to `DIST_29`, in DIST_SYM and in DIST_EXTRA (43_symbols.md rules R273, R274, R310 to
R339; 44_sliding_window.md rule R372). -/
def Obligations.DistanceElementsComplete : Prop :=
  ∀ (i : Instr) (s : State) (t : Nat), i.distSymbol = some t → t ≤ 29 →
    (s.fsm = Fsm.distSym.code → codeLen s.distTable t ≠ 0 →
      (s.consumed 15 (codeLen s.distTable t)).truncated = false →
      exec i s = .next
        { s.consumed 15 (codeLen s.distTable t) with dsym := BitVec.ofNat 5 t, fsm := Fsm.distExtra.code }) ∧
    (s.fsm = Fsm.distExtra.code → s.dsym.toNat = t → (s.consumed (dextOf t) (dextOf t)).truncated = false →
      (dbaseOf t + extraValue i ≤ s.histLen.toNat →
        exec i s = .next
          { s.consumed (dextOf t) (dextOf t) with
            mdist := BitVec.ofNat 16 (dbaseOf t + extraValue i)
            rem := s.mlen.setWidth 16
            fsm := Fsm.copy.code }) ∧
      (s.histLen.toNat < dbaseOf t + extraValue i → exec i s = .next (s.raise .invalidBackReference)))

/-! ### What an element leaves unchanged -/

/-- Every element leaves the parameters, the host's levels, `STRICT`, `SRC_LEN`, `SRC`, `TBL_SEL`, `LIT_LEN` and
`DIST_LEN` as they are (10_state.md rules R33, R34, R41 to R43; 20_memory.md rule R77); the bit reader writes `IN_POS`,
`PAD_CNT`, P, `BIT_BUF` and `BIT_CNT` alone (40_bit_reader.md rules R151, R152, R154). -/
def Obligations.ElementsKeepCallInputsAndTables : Prop :=
  (∀ (i : Instr) (s t : State), exec i s = .next t →
    t.cfg = s.cfg ∧ t.pins = s.pins ∧ t.strict = s.strict ∧ t.srcLen = s.srcLen ∧ t.tblSel = s.tblSel ∧
      t.litLen = s.litLen ∧ t.distLen = s.distLen ∧ t.src = s.src ∧
      ∀ a, Memory.read t.src a = Memory.read s.src a) ∧
  ∀ (m n : Nat) (s : State),
    s.consumed m n =
      { s with
        inPos := (s.consumed m n).inPos, padCnt := (s.consumed m n).padCnt, pads := (s.consumed m n).pads
        bitBuf := (s.consumed m n).bitBuf, bitCnt := (s.consumed m n).bitCnt }

/-- Frame of `HDR.STORED`, `HDR.FIXED`, `HDR.DYNAMIC`, `HDR.RESERVED` (42_block_decoder.md rules R220, R223). -/
def Obligations.HeaderElementsFrame : Prop :=
  ∀ (i : Instr) (s t : State) (f : Bool),
    i = .hdrStored f ∨ i = .hdrFixed f ∨ i = .hdrDynamic f ∨ i = .hdrReserved f → exec i s = .next t →
      t =
        { s with
          inPos := t.inPos, padCnt := t.padCnt, pads := t.pads, bitBuf := t.bitBuf, bitCnt := t.bitCnt
          bfinal := t.bfinal, btype := t.btype, fsm := t.fsm, errCode := t.errCode } ∧
      (i = .hdrReserved f → t.bfinal = s.bfinal ∧ t.btype = s.btype) ∧
      ∀ a, Memory.read t.win a = Memory.read s.win a

/-- Frame of `STORED.ALIGN`, `STORED.LEN` and `STORED.NLEN` (42_block_decoder.md rules R224 to R226). -/
def Obligations.StoredFieldElementsFrame : Prop :=
  ∀ (i : Instr) (s t : State),
    i = .storedAlign ∨ (∃ v, i = .storedLen v) ∨ (∃ v, i = .storedNlen v) → exec i s = .next t →
      t =
        { s with
          inPos := t.inPos, padCnt := t.padCnt, pads := t.pads, bitBuf := t.bitBuf, bitCnt := t.bitCnt
          storedLen := t.storedLen, rem := t.rem, fsm := t.fsm, errCode := t.errCode } ∧
      (t.storedLen ≠ s.storedLen → ∃ v, i = .storedLen v) ∧ (t.rem ≠ s.rem → ∃ v, i = .storedNlen v) ∧
      ∀ a, Memory.read t.win a = Memory.read s.win a

/-- Frame of the elements that produce a byte, `STORED.BYTE` and `LIT`: the one byte of the window written is at `WPOS`
(42_block_decoder.md rule R227, 43_symbols.md rule R276, 44_sliding_window.md rule R370). -/
def Obligations.ByteElementsFrame : Prop :=
  ∀ (i : Instr) (s t : State) (b : Byte), i = .storedByte b ∨ i = .lit b → exec i s = .next t →
      t =
        { s with
          inPos := t.inPos, padCnt := t.padCnt, pads := t.pads, bitBuf := t.bitBuf, bitCnt := t.bitCnt
          win := t.win, wpos := t.wpos, histLen := t.histLen, out := t.out, outCount := t.outCount
          rem := t.rem, fsm := t.fsm, errCode := t.errCode } ∧
      (i = .lit b → t.rem = s.rem) ∧
      ∀ a, a ≠ s.wpos.toNat → Memory.read t.win a = Memory.read s.win a

/-- Frame of `DYN.HDR`, `DYN.CLLEN` and the code-length elements (42_block_decoder.md rules R231, R233, R235). -/
def Obligations.DynamicElementsFrame : Prop :=
  ∀ (i : Instr) (s t : State),
    ((∃ hl hd hc, i = .dynHdr hl hd hc) ∨ (∃ v, i = .dynCllen v) → exec i s = .next t →
      t =
        { s with
          inPos := t.inPos, padCnt := t.padCnt, pads := t.pads, bitBuf := t.bitBuf, bitCnt := t.bitCnt
          nlit := t.nlit, ndist := t.ndist, nclen := t.nclen, clLen := t.clLen, idx := t.idx
          fsm := t.fsm, errCode := t.errCode } ∧
      (t.nlit ≠ s.nlit ∨ t.ndist ≠ s.ndist ∨ t.nclen ≠ s.nclen → ∃ hl hd hc, i = .dynHdr hl hd hc) ∧
      ∀ a, Memory.read t.win a = Memory.read s.win a) ∧
    (i.clSymbol ≠ none → exec i s = .next t →
      t =
        { s with
          inPos := t.inPos, padCnt := t.padCnt, pads := t.pads, bitBuf := t.bitBuf, bitCnt := t.bitCnt
          lens := t.lens, idx := t.idx, fsm := t.fsm, errCode := t.errCode } ∧
      (∀ k, k < s.idx.toNat ∨ t.idx.toNat ≤ k → t.lensAt k = s.lensAt k) ∧
      ∀ a, Memory.read t.win a = Memory.read s.win a)

/-- Frame of `EOB`, the length elements and literal/length symbols 286 and 287 (43_symbols.md rules R270, R272, R277,
R278): only a length element writes `LSYM`, and it in SYM alone, and `MLEN`, in LEN_EXTRA alone. -/
def Obligations.LengthElementsFrame : Prop :=
  ∀ (i : Instr) (s t : State) (sym : Nat), i.litLenSymbol = some sym → 256 ≤ sym → exec i s = .next t →
      t =
        { s with
          inPos := t.inPos, padCnt := t.padCnt, pads := t.pads, bitBuf := t.bitBuf, bitCnt := t.bitCnt
          lsym := t.lsym, mlen := t.mlen, fsm := t.fsm, errCode := t.errCode } ∧
      (t.lsym ≠ s.lsym → 257 ≤ sym ∧ sym ≤ 285 ∧ s.fsm = Fsm.sym.code) ∧
      (t.mlen ≠ s.mlen → 257 ≤ sym ∧ sym ≤ 285 ∧ s.fsm = Fsm.lenExtra.code) ∧
      ∀ a, Memory.read t.win a = Memory.read s.win a

/-- Frame of the distance elements and distance symbols 30 and 31 (43_symbols.md rules R273, R274, R340): `DSYM` is
written in DIST_SYM alone, `MDIST` and `REM` in DIST_EXTRA alone. -/
def Obligations.DistanceElementsFrame : Prop :=
  ∀ (i : Instr) (s t : State) (d : Nat), i.distSymbol = some d → exec i s = .next t →
      t =
        { s with
          inPos := t.inPos, padCnt := t.padCnt, pads := t.pads, bitBuf := t.bitBuf, bitCnt := t.bitCnt
          dsym := t.dsym, mdist := t.mdist, rem := t.rem, fsm := t.fsm, errCode := t.errCode } ∧
      (t.dsym ≠ s.dsym → d ≤ 29 ∧ s.fsm = Fsm.distSym.code) ∧
      (t.mdist ≠ s.mdist ∨ t.rem ≠ s.rem → d ≤ 29 ∧ s.fsm = Fsm.distExtra.code) ∧
      ∀ a, Memory.read t.win a = Memory.read s.win a

/-! ### The machine as a whole -/

/-- The invariant holds right after reset.  The arrays, `WIN` and `SRC` hold the values of notes/assumptions/3.md, 4.md and
5.md there; the invariant asks nothing of the arrays' values. -/
def Obligations.InvHoldsAtReset : Prop := State.reset.Inv

/-- Every step keeps the invariant: 10_state.md rules R35 to R40, R45, R49 to R58; 20_memory.md rule R70 and
40_bit_reader.md rules R152, R160 (the staged bits are the source's); 44_sliding_window.md rule R376; 60_exceptions.md rule R457. -/
def Obligations.StepKeepsInvariant : Prop :=
  ∀ s t : State, s.Inv → step s = .next t → t.Inv

/-- From a state that meets the invariant no step faults or refuses (40_bit_reader.md rule R158; 45_stream_controller.md
rule R403; 93_implementation_defined.md U1, U2: "no rule reaches the situation"). -/
def Obligations.InvariantStatesNeverFault : Prop :=
  ∀ s : State, s.Inv → ∃ t, step s = .next t

/-- Reset wins over everything: 10_state.md rule R32, 60_exceptions.md rule R455, 70_reset_and_hazards.md rules R490, R492. -/
def Obligations.ResetWinsOverEverything : Prop :=
  ∀ s : State, s.pins.rst = true → ∃ t, step s = .next t ∧
    t.fsm = Fsm.idle.code ∧ t.status = 0 ∧ t.strict = false ∧ t.srcLen = 0 ∧ t.inPos = 0 ∧ t.padCnt = 0 ∧
    t.bitBuf = 0 ∧ t.bitCnt = 0 ∧ t.bfinal = false ∧ t.btype = 0 ∧ t.tblSel = false ∧ t.nlit = 0 ∧ t.ndist = 0 ∧
    t.nclen = 0 ∧ t.idx = 0 ∧ t.storedLen = 0 ∧ t.rem = 0 ∧ t.lsym = 0 ∧ t.dsym = 0 ∧ t.mlen = 0 ∧ t.mdist = 0 ∧
    t.wpos = 0 ∧ t.histLen = 0 ∧ t.outCount = 0 ∧ t.errCode = 0 ∧ t.outPort = none

/-- START accepted: 45_stream_controller.md rule R401, and 70_reset_and_hazards.md rule R493 with decision D20: every
field but the parameters, the levels, `SRC`, the arrays and `WIN` is fixed by START.  Two clauses are the model's choice:
`pads` is cleared (notes/assumptions/15.md), and so are the ten registers from `nlit` to `mdist`, which the list of R401
does not name (notes/assumptions/19.md). -/
def Obligations.StartBeginsACall : Prop :=
  ∀ s : State, s.pins.rst = false → s.pins.start = true →
    s.fsm = Fsm.idle.code ∨ s.fsm = Fsm.done.code ∨ s.fsm = Fsm.error.code →
    s.pins.srcLen < 2 ^ s.cfg.srcLenW →
      step s = .next
        { s with
          strict := s.pins.strict, srcLen := s.pins.srcLen, inPos := 0, padCnt := 0, pads := 0, bitBuf := 0
          bitCnt := 0, bfinal := false, btype := 0, tblSel := false, nlit := 0, ndist := 0, nclen := 0, idx := 0
          storedLen := 0, rem := 0, lsym := 0, dsym := 0, mlen := 0, mdist := 0, wpos := 0, histLen := 0, outCount := 0
          errCode := 0, out := [], fsm := (if s.pins.srcLen = 0 then Fsm.done else Fsm.hdr).code }

/-- START while a call runs is ignored, whatever the other inputs of START are: 45_stream_controller.md rule R402. -/
def Obligations.StartIsIgnoredWhileBusy : Prop :=
  ∀ (s : State) (start strict : Bool) (n : Nat), s.pins.rst = false → s.busy = true →
    let p : Pins := { s.pins with start := start, strict := strict, srcLen := n }
    (∀ t, step s = .next t → step { s with pins := p } = .next { t with pins := p }) ∧
    (∀ f, step s = .fault f → step { s with pins := p } = .fault f)

/-- IDLE, DONE and ERROR have no step and keep all state, and a value of `FSM` above 18 is a fault: 45_stream_controller.md
rule R403, 60_exceptions.md rules R456, R457, R465. -/
def Obligations.StatesWithoutAStep : Prop :=
  ∀ s : State, s.pins.rst = false →
    (s.pins.start = false → s.fsm = Fsm.idle.code ∨ s.fsm = Fsm.done.code ∨ s.fsm = Fsm.error.code →
      step s = .next s) ∧
    (19 ≤ s.fsm.toNat → step s = .fault .fsmUnused)

/-- Error entry: 60_exceptions.md rule R452. -/
def Obligations.RaiseWritesErrorEntryAlone : Prop :=
  ∀ s t : State, s.ownStep → s.fsm ≠ Fsm.error.code → step s = .next t → t.fsm = Fsm.error.code →
    ∃ e : Err, t = { s with errCode := e.code, fsm := 18 } ∧
      t.status = 4 ||| (e.code.setWidth 32 <<< 3) ||| (18 <<< 6)

/-- Each state's step raises only its errors: 60_exceptions.md rule R451. -/
def Obligations.StepRaisesOnlyItsErrors : Prop :=
  ∀ (s t : State) (f : Fsm), s.Inv → s.ownStep → s.fsm = f.code → f ≠ .error → step s = .next t →
    t.fsm = Fsm.error.code → ∃ e ∈ errorsOf f, t = s.raise e

/-- Without `out_ready` a step that raises still raises, a step that would produce holds, and every other step advances:
45_stream_controller.md rule R404, 00_scope.md rule R19. -/
def Obligations.StalledStepHoldsOnlyProduction : Prop :=
  ∀ s : State, s.pins.rst = false → s.busy = true → s.pins.outReady = false →
    (∀ t, step s.ready = .next t → t.out ≠ s.out → step s = .next s) ∧
    (∀ t, step s.ready = .next t → t.out = s.out → step s = .next { t with pins := s.pins }) ∧
    (∀ f, step s.ready = .fault f → step s = .fault f)

/-- A step produces at most one byte, into the window and the output together and in order: 20_memory.md rules R76, R82,
R83, 44_sliding_window.md rule R370. -/
def Obligations.StepProducesAtMostOneByte : Prop :=
  ∀ s t : State, s.ownStep → step s = .next t →
    (t.out = s.out ∧ t.outCount = s.outCount ∧ t.win = s.win ∧ t.wpos = s.wpos ∧ t.histLen = s.histLen) ∨
    ∃ b : Byte, s.pins.outReady = true ∧ t.out = s.out ++ [b] ∧
      t.outCount = (s.outCount + 1) % 2 ^ s.cfg.outCountW ∧ t.win = Memory.write s.win s.wpos.toNat b ∧
      t.wpos.toNat = (s.wpos.toNat + 1) % 32768 ∧ t.histLen.toNat = min (s.histLen.toNat + 1) 32768

/-- The byte on the output port is the one transferred, it stays while the core holds, and no byte is transferred that the
port does not present: 20_memory.md rule R76, 70_reset_and_hazards.md rule R502.  That the port presents the byte which
the next step would transfer is the model's choice of `State.outPort` (notes/assumptions/18.md). -/
def Obligations.OutputPortTransfersOnReady : Prop :=
  ∀ (s : State) (b : Byte), s.pins.rst = false →
    (s.outPort = some b →
      (s.pins.outReady = true → ∃ t, step s = .next t ∧ t.out = s.out ++ [b]) ∧
      (s.pins.outReady = false → step s = .next s)) ∧
    ∀ t, step s = .next t → t.out = s.out ++ [b] → s.outPort = some b

/-- `CUR` never decreases and advances by at most 16: 10_state.md rules R31, R38, 40_bit_reader.md rule R160. -/
def Obligations.CursorNeverRegresses : Prop :=
  ∀ s t : State, s.Inv → s.ownStep → step s = .next t → s.cur ≤ t.cur ∧ t.cur ≤ s.cur + 16

/-- An advancing step depends on `SRC` at the offsets from `IN_POS` up to the next `IN_POS` alone, so no two advancing
steps of a call depend on one offset; any step depends on the offsets from `IN_POS` up to `SRC_LEN` alone, and `IN_POS`
never moves back: 20_memory.md rules R77, R78, 40_bit_reader.md rule R152.  A raise, which ends the call, and a hold,
whose step is attempted again (45_stream_controller.md rule R404), keep `IN_POS`: the first clause leaves them out. -/
def Obligations.StepReadsSourceAheadOnly : Prop :=
  ∀ (s : State) (m : List Host.Cell),
    (∀ t, step s = .next t → t.fsm ≠ Fsm.error.code → s.pins.outReady = true ∨ t ≠ s →
      (∀ a, s.inPos ≤ a → a < t.inPos → Memory.read m a = Memory.read s.src a) →
      step { s with src := m } = .next { t with src := m }) ∧
    ((∀ a, s.inPos ≤ a → a < s.srcLen → Memory.read m a = Memory.read s.src a) →
      (∀ t, step s = .next t → step { s with src := m } = .next { t with src := m }) ∧
      (∀ f, step s = .fault f → step { s with src := m } = .fault f)) ∧
    ∀ t, s.ownStep → step s = .next t → s.inPos ≤ t.inPos

/-- `WinBack(d)` is the byte produced `d` bytes ago: 44_sliding_window.md rules R371, R372. -/
def Obligations.WinBackIsTheByteProducedDAgo : Prop :=
  ∀ (s : State) (d : BitVec 16), s.Inv → 1 ≤ d.toNat → d.toNat ≤ s.histLen.toNat →
    s.out[s.out.length - d.toNat]? = some (s.winBack d)

/-- A back-reference of length `REM` and distance `MDIST` produces its bytes one at a time: 44_sliding_window.md rule R373. -/
def Obligations.CopyRunIsByteByByte : Prop :=
  ∀ s : State, s.Inv → s.flowing → s.fsm = Fsm.copy.code →
    ∃ t, runSteps s.rem.toNat s = .next t ∧ t.fsm = Fsm.sym.code ∧
      t.out = copyBytes s.mdist.toNat s.rem.toNat s.out

/-- The raw bytes of a STORED block are produced verbatim: 42_block_decoder.md rule R227, 95_test_vectors.md L1.3. -/
def Obligations.StoredRunIsVerbatim : Prop :=
  ∀ s : State, s.Inv → s.flowing → s.fsm = Fsm.storedCopy.code → s.bitCnt = 0 →
    s.inPos + s.rem.toNat ≤ s.srcLen →
    ∃ t, runSteps s.rem.toNat s = .next t ∧
      t.fsm = (if s.bfinal then Fsm.done else Fsm.hdr).code ∧ t.inPos = s.inPos + s.rem.toNat ∧
      t.out = s.out ++ (List.range s.rem.toNat).map fun k => Memory.read s.src (s.inPos + k)

/-- In strict mode every call ends in DONE or ERROR: 45_stream_controller.md rule R408 (a). -/
def Obligations.StrictCallEnds : Prop :=
  ∀ s : State, s.Inv → s.flowing → s.strict = true → s.busy = true →
    ∃ k t, runSteps k s = .next t ∧ (t.fsm = Fsm.done.code ∨ t.fsm = Fsm.error.code)

/-- In lenient mode a call may run without end: 45_stream_controller.md rule R408 (b), 93_implementation_defined.md U4. -/
def Obligations.LenientCallMayRunForEver : Prop :=
  ∃ s : State, s.Inv ∧ s.flowing ∧ s.strict = false ∧ ∀ k, ∃ t, runSteps k s = .next t ∧ t.busy = true

/-- Nothing of an earlier call can be observed in a call, nor can the lookup widths `LBITS`, `DBITS` and `CLBITS`:
44_sliding_window.md rule R375, 70_reset_and_hazards.md rule R493, 00_scope.md rule R12, 41_huffman.md rule R192. -/
def Obligations.NoStateLeaksAcrossCalls : Prop :=
  ∀ (s s' : State) (k : Nat), s.Inv → s'.Inv →
    s.cfg.rejectIncomplete = s'.cfg.rejectIncomplete → s.cfg.srcLenW = s'.cfg.srcLenW →
    s.cfg.outCountW = s'.cfg.outCountW → s.pins = s'.pins → s.src = s'.src →
    s.pins.rst = false → s.pins.start = true → s.atRest = true → s'.atRest = true →
    ∃ t t', runSteps (k + 1) s = .next t ∧ runSteps (k + 1) s' = .next t' ∧ t.observed = t'.observed

/-- The status word: 10_state.md rule R60. -/
def Obligations.StatusWordFields : Prop :=
  (∀ s : State,
    s.status.getLsbD 0 = (s.fsm != 0 && s.fsm != 17 && s.fsm != 18) ∧ s.status.getLsbD 1 = (s.fsm == 17) ∧
    s.status.getLsbD 2 = (s.fsm == 18) ∧ s.status.extractLsb' 3 3 = s.errCode ∧ s.status.extractLsb' 6 5 = s.fsm ∧
    s.status.extractLsb' 11 21 = 0) ∧
  State.reset.status = 0

/-! ### Decoding -/

/-- Decoding what the encoder writes gives the element back and leaves the bits after it: 30_encoding.md rules R101 to
R106, R109 to R112, R116; for every context whose table is a prefix code (41_huffman.md rule R184). -/
def Obligations.DecodeOfEncodeIsTheElement : Prop :=
  ∀ (c : Ctx) (i : Instr) (bits rest : List Bool), ctxSound c → i.wellFormed = true → encode c i = some bits →
    decode c (bits ++ rest) = .ok (i, rest)

/-- The bits of a decoded element are the encoder's, so no bit is dropped and each word has one meaning.  STORED.ALIGN is
the one element whose bits are ignored (42_block_decoder.md rule R224). -/
def Obligations.EncodeOfDecodeIsTheBits : Prop :=
  ∀ (c : Ctx) (i : Instr) (bits rest : List Bool), i ≠ .storedAlign → decode c bits = .ok (i, rest) →
    i.wellFormed = true ∧ ∃ pre, encode c i = some pre ∧ bits = pre ++ rest

/-- The codes of a set that is not over-subscribed are distinct and no code is a prefix of another: 41_huffman.md rule R184. -/
def Obligations.CanonicalCodesArePrefixFree : Prop :=
  ∀ (L : List Nat) (maxb s t : Nat), tableSound L maxb → codeLen L s ≠ 0 → codeLen L t ≠ 0 → s ≠ t →
    ¬codeBits (codeLen L s) (codeOf L s) <+: codeBits (codeLen L t) (codeOf L t)

/-- The status of a build by the part of the code space the codes need, and the error `BuildDyn` raises: 41_huffman.md
rules R183 to R185 and R188.  IncompleteHuffmanCode is raised exactly where `REJECT_INCOMPLETE` holds, the codes leave
a part of the space free, and they are not degenerate: not without a code and not one code of length 1. -/
def Obligations.OverSubscribedIffCodeSpaceExceeded : Prop :=
  ∀ (L : List Nat) (maxb : Nat), (∀ x ∈ L, x ≤ maxb) →
    (buildStatus L maxb = .overSubscribed ↔ 2 ^ maxb < codeSpace L maxb) ∧
    (buildStatus L maxb = .ok ↔ codeSpace L maxb = 2 ^ maxb) ∧
    (buildStatus L maxb = .incomplete ↔ 0 < codeSpace L maxb ∧ codeSpace L maxb < 2 ^ maxb) ∧
    (buildStatus L maxb = .empty ↔ ∀ x ∈ L, x = 0) ∧
    ∀ reject e, buildDyn reject L maxb = some e ↔
      (e = .overSubscribedHuffmanCode ∧ 2 ^ maxb < codeSpace L maxb) ∨
      (e = .incompleteHuffmanCode ∧ reject = true ∧ 0 < codeSpace L maxb ∧ codeSpace L maxb < 2 ^ maxb ∧
        ¬(L.count 1 = 1 ∧ ∀ x ∈ L, x = 0 ∨ x = 1))

/-- The fixed codes: 30_encoding.md rules R113 and R114, which the spec marks as derived from 10_state.md rule R59 and
41_huffman.md rule R182; the recurrence of R182 is general knowledge in the spec (notes/assumptions/16.md). -/
def Obligations.FixedCodesAreTheTables : Prop :=
  (∀ s < 144, codeLen fixedLitLen s = 8 ∧ codeOf fixedLitLen s = 0x30 + s) ∧
  (∀ k < 112, codeLen fixedLitLen (144 + k) = 9 ∧ codeOf fixedLitLen (144 + k) = 0x190 + k) ∧
  (∀ k < 24, codeLen fixedLitLen (256 + k) = 7 ∧ codeOf fixedLitLen (256 + k) = k) ∧
  (∀ k < 8, codeLen fixedLitLen (280 + k) = 8 ∧ codeOf fixedLitLen (280 + k) = 0xC0 + k) ∧
  (∀ t < 30, codeLen fixedDistLen t = 5 ∧ codeOf fixedDistLen t = t) ∧
  ∀ rest, decode (.distSym fixedDistLen) (true :: true :: true :: true :: rest) = .error .unassignedCode

/-- `ReadBits(n)` reads the bits the decoder sees, stages at least `n` bits and pulls at most two bytes: 40_bit_reader.md
rules R151, R153, R156.  During a call those bits are the source's from the cursor on, zeros past its end: 20_memory.md
rule R70, 10_state.md rule R38, 40_bit_reader.md rules R152, R159.  Strict mode raises exactly where one of them lies past
the end, which the spec marks as derived (40_bit_reader.md rule R155). -/
def Obligations.ReadBitsReadsTheNextBits : Prop :=
  (∀ (s : State) (n : Nat), n ≤ 16 →
    readBits n s =
      (if (s.consumed n n).truncated then .error (.raise .truncatedInput)
      else .ok (bitsVal (s.peek n), s.consumed n n)) ∧
    n ≤ (s.staged n).bitCnt.toNat ∧ (s.staged n).bitCnt.toNat ≤ max s.bitCnt.toNat (n + 7) ∧
    (s.staged n).inPos + (s.staged n).pads ≤ s.inPos + s.pads + 2) ∧
  ∀ s : State, s.Inv → s.busy = true →
    (∀ n, s.peek n = (List.range n).map fun k => s.sourceBit (s.cur + k)) ∧
    ∀ n ≤ 16, (s.consumed n n).cur = s.cur + n ∧
      (s.consumed n n).truncated = (s.strict && decide (8 * s.srcLen < s.cur + n))

/-- A step of a state that reads an element is the meaning of the element at the cursor: 45_stream_controller.md rule R403,
30_encoding.md rule R117. -/
def Obligations.StepRunsTheDecodedElement : Prop :=
  ∀ (s : State) (f : Fsm) (c : Ctx) (i : Instr) (rest : List Bool), s.ownStep → s.fsm = f.code → s.ctx f = some c →
    decode c (s.peek 28) = .ok (i, rest) → i.wellFormed = true → step s = exec i s

/-- Words written out from the encodings: 30_encoding.md rules R101, R102, R104 to R106, R113, R114. -/
def Obligations.WrittenWordsDecode : Prop :=
  decode .hdr [true, false, true] = .ok (.hdrDynamic true, []) ∧
  decode .storedByte [false, false, false, true, false, false, true, false] = .ok (.storedByte 0x48, []) ∧
  decode .dynHdr [true, false, false, false, false, false, true, false, false, false, false, true, true, true] =
    .ok (.dynHdr 1 2 14, []) ∧
  decode .dynCllen [true, false, false] = .ok (.dynCllen 1, []) ∧
  decode (.clSym (soleSymbol 19 17)) [false, true, true, false] = .ok (.clZero17 6, []) ∧
  decode (.litLenSym fixedLitLen) [false, true, true, true, false, false, false, true] = .ok (.lit 0x41, []) ∧
  decode (.litLenSym fixedLitLen) [false, false, false, true, false, false, true, true] = .ok (.len265 1, []) ∧
  decode (.distSym fixedDistLen) [false, false, true, false, false, true] = .ok (.dist4 1, [])

/-! ### The host -/

/-- What the host may do between two steps: it drives the levels at any time; its load fills `SRC` from offset 0 at rest
and is refused during a call (20_memory.md rule R86, 70_reset_and_hazards.md rules R494, R501, 10_state.md rule R61).  That
it is refused and not left out, and that an offset past the loaded bytes reads 0, are the model's choice
(notes/assumptions/22.md, 5.md).  Neither a move nor a step after moves leaves
the invariant, and no schedule of moves and steps faults. -/
def Obligations.HostMovesKeepInvariant : Prop :=
  (∀ (s : State) (p : Pins), s.hostMove (.drive p) = .next { s with pins := p }) ∧
  (∀ (s : State) (bytes : List Byte),
    (s.busy = true → s.hostMove (.load bytes) = .refused .sourceChangedDuringCall) ∧
    (s.busy = false → ∃ m, s.hostMove (.load bytes) = .next { s with src := m } ∧
      ∀ a, Memory.read m a = bytes.getD a 0)) ∧
  (∀ (s t : State) (m : HostMove), s.Inv → s.hostMove m = .next t → t.Inv) ∧
  (∀ (s t : State) (schedule : List (List HostMove)), s.Inv → runCycles schedule s = .next t → t.Inv) ∧
  ∀ (s : State) (schedule : List (List HostMove)) (f : Fault), s.Inv → runCycles schedule s ≠ .fault f
end

