-- ==== Sys2Proof/Laws/Decode.lean ====
section
/-! SUPPORT. Fields as lists of bits: values and bits are each other's inverse. -/

namespace Sys2Proof

@[simp] theorem fieldBits_length (n v : Nat) : (fieldBits n v).length = n := by
  induction n generalizing v with
  | zero => rfl
  | succ n ih => simp [fieldBits, ih]

theorem bitsVal_lt (bs : List Bool) : bitsVal bs < 2 ^ bs.length := by
  induction bs with
  | nil => simp [bitsVal]
  | cons b bs ih =>
    have hb : b.toNat ≤ 1 := by cases b <;> simp
    simp only [bitsVal, List.length_cons, Nat.pow_succ]
    omega

/-- The value of the bits of `v` is `v`, cut to the field. -/
theorem bitsVal_fieldBits (n v : Nat) : bitsVal (fieldBits n v) = v % 2 ^ n := by
  induction n generalizing v with
  | zero => simp [fieldBits, bitsVal, Nat.mod_one]
  | succ n ih =>
    have hb : (v % 2 == 1).toNat = v % 2 := by
      rcases Nat.mod_two_eq_zero_or_one v with h | h <;> simp [h]
    rw [fieldBits, bitsVal, ih, hb, Nat.pow_succ, Nat.mul_comm (2 ^ n) 2, Nat.mod_mul]

/-- The bits of the value of a list are the list. -/
theorem fieldBits_bitsVal (bs : List Bool) : fieldBits bs.length (bitsVal bs) = bs := by
  induction bs with
  | nil => rfl
  | cons b bs ih =>
    have h1 : (b.toNat + 2 * bitsVal bs) / 2 = bitsVal bs := by cases b <;> simp; omega
    have h2 : ((b.toNat + 2 * bitsVal bs) % 2 == 1) = b := by cases b <;> simp
    rw [List.length_cons, bitsVal, fieldBits, h1, h2, ih]

/-- A field and the stream after it, read back. -/
theorem takeField_append (n v : Nat) (rest : List Bool) :
    takeField n (fieldBits n v ++ rest) = some (v % 2 ^ n, rest) := by
  simp [takeField, bitsVal_fieldBits]

/-- An operand field, read back. -/
theorem withField_append {n : Nat} (mk : BitVec n → Instr) (v : BitVec n) (rest : List Bool) :
    withField n mk (fieldBits n v.toNat ++ rest) = some (mk v, rest) := by
  simp [withField, takeField_append]

/-- A repeat count, read back. -/
theorem withRepeat_append {n base r : Nat} (mk : Nat → Instr) (h1 : base ≤ r) (h2 : r < base + 2 ^ n)
    (rest : List Bool) : withRepeat n base mk (fieldBits n (r - base) ++ rest) = some (mk r, rest) := by
  have h : base + (r - base) % 2 ^ n = r := by
    rw [Nat.mod_eq_of_lt (by omega)]; omega
  simp [withRepeat, takeField_append, h]

/-- A field takes no more bits than it has. -/
theorem takeField_eq_some {n v : Nat} {bits rest : List Bool} (h : takeField n bits = some (v, rest)) :
    bits = fieldBits n v ++ rest ∧ v < 2 ^ n := by
  unfold takeField at h
  split at h
  · next hn =>
    obtain ⟨rfl, rfl⟩ : bitsVal (bits.take n) = v ∧ bits.drop n = rest := by simpa using h
    have hl : (bits.take n).length = n := by simp [hn]
    refine ⟨?_, ?_⟩
    · have hb := fieldBits_bitsVal (bits.take n)
      rw [show (bits.take n).length = n from hl] at hb
      rw [hb, List.take_append_drop]
    · simpa [hl] using bitsVal_lt (bits.take n)
  · cases h

end Sys2Proof
end

