-- ==== Sys2Proof/Laws/Memory.lean ====
section
/-! SUPPORT. The byte memories: read after write, and that every operation keeps the canonical form. -/

namespace Sys2Proof.Machine

theorem Memory.read_of_lt {lo a : Nat} {m : List Host.Cell} (h : Memory.wfFrom lo m = true) (ha : a < lo) :
    Memory.read m a = Memory.unlisted := by
  induction m generalizing lo with
  | nil => rfl
  | cons c m ih =>
    obtain ⟨b, v⟩ := c
    simp only [Memory.wfFrom, Bool.and_eq_true, decide_eq_true_eq] at h
    have hne : a ≠ b := by omega
    simp only [Memory.read, hne, if_false]
    exact ih h.2 (by omega)

/-- A read of the address written gives the byte written. -/
theorem Memory.read_write_same {lo : Nat} {m : List Host.Cell} (h : Memory.wfFrom lo m = true) (a : Nat) (v : Byte) :
    Memory.read (Memory.write m a v) a = v := by
  induction m generalizing lo with
  | nil => by_cases hv : v = Memory.unlisted <;> simp [Memory.write, Memory.read, hv]
  | cons c m ih =>
    obtain ⟨b, u⟩ := c
    simp only [Memory.wfFrom, Bool.and_eq_true, decide_eq_true_eq] at h
    rcases Nat.lt_trichotomy a b with hab | rfl | hab
    · have hne : a ≠ b := by omega
      have hrest := Memory.read_of_lt h.2 (show a < b + 1 by omega)
      by_cases hv : v = Memory.unlisted <;> simp [Memory.write, Memory.read, hab, hne, hv, hrest]
    · have hrest := Memory.read_of_lt h.2 (show a < a + 1 by omega)
      by_cases hv : v = Memory.unlisted <;> simp [Memory.write, Memory.read, hv, hrest]
    · have hne : a ≠ b := by omega
      have hlt : ¬a < b := by omega
      simpa [Memory.write, Memory.read, hlt, hne] using ih h.2

/-- A read of any other address is as before. -/
theorem Memory.read_write_other (m : List Host.Cell) {a b : Nat} (v : Byte) (hab : b ≠ a) :
    Memory.read (Memory.write m a v) b = Memory.read m b := by
  induction m with
  | nil => by_cases hv : v = Memory.unlisted <;> simp [Memory.write, Memory.read, hv, hab]
  | cons c m ih =>
    obtain ⟨d, u⟩ := c
    rcases Nat.lt_trichotomy a d with had | rfl | had
    · by_cases hv : v = Memory.unlisted <;> simp [Memory.write, Memory.read, had, hv, hab]
    · by_cases hv : v = Memory.unlisted <;> simp [Memory.write, Memory.read, hv, hab]
    · have h1 : ¬a < d := by omega
      have h2 : a ≠ d := by omega
      simp [Memory.write, Memory.read, h1, h2, ih]

theorem Memory.write_wfFrom {lo a : Nat} {m : List Host.Cell} (h : Memory.wfFrom lo m = true) (ha : lo ≤ a) (v : Byte) :
    Memory.wfFrom lo (Memory.write m a v) = true := by
  induction m generalizing lo with
  | nil => by_cases hv : v = Memory.unlisted <;> simp [Memory.write, Memory.wfFrom, hv, ha]
  | cons c m ih =>
    obtain ⟨d, u⟩ := c
    have h0 := h
    simp only [Memory.wfFrom, Bool.and_eq_true, decide_eq_true_eq] at h
    obtain ⟨⟨hd, hu⟩, hm⟩ := h
    have weaken : ∀ {l l'}, l' ≤ l → Memory.wfFrom l m = true → Memory.wfFrom l' m = true := by
      intro l l' hl hw
      cases m with
      | nil => rfl
      | cons c' m' =>
        obtain ⟨e, w⟩ := c'
        simp only [Memory.wfFrom, Bool.and_eq_true, decide_eq_true_eq] at hw ⊢
        exact ⟨⟨by omega, hw.1.2⟩, hw.2⟩
    rcases Nat.lt_trichotomy a d with had | rfl | had
    · by_cases hv : v = Memory.unlisted
      · simpa [Memory.write, had, hv] using h0
      · simp only [Memory.write, had, hv, if_true, if_false, Memory.wfFrom, Bool.and_eq_true, decide_eq_true_eq]
        exact ⟨⟨ha, hv⟩, ⟨by omega, hu⟩, hm⟩
    · by_cases hv : v = Memory.unlisted
      · simpa [Memory.write, hv] using weaken (by omega) hm
      · simp [Memory.write, hv, Memory.wfFrom, ha, hm]
    · have h1 : ¬a < d := by omega
      have h2 : a ≠ d := by omega
      simp only [Memory.write, h1, h2, if_false, Memory.wfFrom, Bool.and_eq_true, decide_eq_true_eq]
      exact ⟨⟨hd, hu⟩, ih hm (by omega)⟩

/-- A write keeps the canonical form. -/
theorem Memory.write_wf {m : List Host.Cell} (h : Memory.wf m = true) (a : Nat) (v : Byte) :
    Memory.wf (Memory.write m a v) = true := Memory.write_wfFrom h (Nat.zero_le a) v

theorem Memory.ofBytes_wfFrom (a : Nat) (vs : List Byte) : Memory.wfFrom a (Memory.ofBytes a vs) = true := by
  induction vs generalizing a with
  | nil => rfl
  | cons v vs ih =>
    have ih' := ih (a + 1)
    by_cases hv : v = Memory.unlisted
    · simp only [Memory.ofBytes, hv, if_true]
      cases hm : Memory.ofBytes (a + 1) vs with
      | nil => rfl
      | cons c m =>
        obtain ⟨e, w⟩ := c
        rw [hm] at ih'
        simp only [Memory.wfFrom, Bool.and_eq_true, decide_eq_true_eq] at ih' ⊢
        exact ⟨⟨by omega, ih'.1.2⟩, ih'.2⟩
    · simp [Memory.ofBytes, hv, Memory.wfFrom, ih']

/-- A payload is in the canonical form. -/
theorem Memory.ofBytes_wf (vs : List Byte) : Memory.wf (Memory.ofBytes 0 vs) = true := Memory.ofBytes_wfFrom 0 vs

/-- A write below a bound keeps the memory below it. -/
theorem Memory.write_below {hi a : Nat} {m : List Host.Cell} (h : Memory.below hi m = true) (ha : a < hi) (v : Byte) :
    Memory.below hi (Memory.write m a v) = true := by
  induction m with
  | nil => by_cases hv : v = Memory.unlisted <;> simp [Memory.write, Memory.below, hv, ha]
  | cons c m ih =>
    obtain ⟨d, u⟩ := c
    simp only [Memory.below, List.all_cons, Bool.and_eq_true, decide_eq_true_eq] at h ih ⊢
    rcases Nat.lt_trichotomy a d with had | rfl | had
    · by_cases hv : v = Memory.unlisted
      · simpa [Memory.write, had, hv] using h
      · simpa [Memory.write, had, hv, ha] using h
    · by_cases hv : v = Memory.unlisted
      · simpa [Memory.write, hv] using h.2
      · simpa [Memory.write, hv] using h
    · have h1 : ¬a < d := by omega
      have h2 : a ≠ d := by omega
      simp only [Memory.write, h1, h2, if_false, List.all_cons, Bool.and_eq_true, decide_eq_true_eq]
      exact ⟨h.1, ih h.2⟩

theorem Memory.reset_win_wf : Memory.wf State.reset.win = true := rfl

theorem Memory.reset_src_wf : Memory.wf State.reset.src = true := rfl

end Sys2Proof.Machine
end

