-- ==== Sys2Proof/Laws/State.lean ====
section
/-! SUPPORT. What each field of the state is after each update: one lemma per field per update, so that no later proof
unfolds a record update. -/

namespace Sys2Proof.Machine

@[simp] theorem State.raise_cfg (e : Err) (s : State) : (s.raise e).cfg = s.cfg := rfl
@[simp] theorem State.raise_pins (e : Err) (s : State) : (s.raise e).pins = s.pins := rfl
@[simp] theorem State.raise_fsm (e : Err) (s : State) : (s.raise e).fsm = Fsm.error.code := rfl
@[simp] theorem State.raise_strict (e : Err) (s : State) : (s.raise e).strict = s.strict := rfl
@[simp] theorem State.raise_srcLen (e : Err) (s : State) : (s.raise e).srcLen = s.srcLen := rfl
@[simp] theorem State.raise_inPos (e : Err) (s : State) : (s.raise e).inPos = s.inPos := rfl
@[simp] theorem State.raise_padCnt (e : Err) (s : State) : (s.raise e).padCnt = s.padCnt := rfl
@[simp] theorem State.raise_pads (e : Err) (s : State) : (s.raise e).pads = s.pads := rfl
@[simp] theorem State.raise_bitBuf (e : Err) (s : State) : (s.raise e).bitBuf = s.bitBuf := rfl
@[simp] theorem State.raise_bitCnt (e : Err) (s : State) : (s.raise e).bitCnt = s.bitCnt := rfl
@[simp] theorem State.raise_bfinal (e : Err) (s : State) : (s.raise e).bfinal = s.bfinal := rfl
@[simp] theorem State.raise_btype (e : Err) (s : State) : (s.raise e).btype = s.btype := rfl
@[simp] theorem State.raise_tblSel (e : Err) (s : State) : (s.raise e).tblSel = s.tblSel := rfl
@[simp] theorem State.raise_litLen (e : Err) (s : State) : (s.raise e).litLen = s.litLen := rfl
@[simp] theorem State.raise_distLen (e : Err) (s : State) : (s.raise e).distLen = s.distLen := rfl
@[simp] theorem State.raise_clLen (e : Err) (s : State) : (s.raise e).clLen = s.clLen := rfl
@[simp] theorem State.raise_nlit (e : Err) (s : State) : (s.raise e).nlit = s.nlit := rfl
@[simp] theorem State.raise_ndist (e : Err) (s : State) : (s.raise e).ndist = s.ndist := rfl
@[simp] theorem State.raise_nclen (e : Err) (s : State) : (s.raise e).nclen = s.nclen := rfl
@[simp] theorem State.raise_idx (e : Err) (s : State) : (s.raise e).idx = s.idx := rfl
@[simp] theorem State.raise_lens (e : Err) (s : State) : (s.raise e).lens = s.lens := rfl
@[simp] theorem State.raise_storedLen (e : Err) (s : State) : (s.raise e).storedLen = s.storedLen := rfl
@[simp] theorem State.raise_rem (e : Err) (s : State) : (s.raise e).rem = s.rem := rfl
@[simp] theorem State.raise_lsym (e : Err) (s : State) : (s.raise e).lsym = s.lsym := rfl
@[simp] theorem State.raise_dsym (e : Err) (s : State) : (s.raise e).dsym = s.dsym := rfl
@[simp] theorem State.raise_mlen (e : Err) (s : State) : (s.raise e).mlen = s.mlen := rfl
@[simp] theorem State.raise_mdist (e : Err) (s : State) : (s.raise e).mdist = s.mdist := rfl
@[simp] theorem State.raise_wpos (e : Err) (s : State) : (s.raise e).wpos = s.wpos := rfl
@[simp] theorem State.raise_histLen (e : Err) (s : State) : (s.raise e).histLen = s.histLen := rfl
@[simp] theorem State.raise_win (e : Err) (s : State) : (s.raise e).win = s.win := rfl
@[simp] theorem State.raise_outCount (e : Err) (s : State) : (s.raise e).outCount = s.outCount := rfl
@[simp] theorem State.raise_errCode (e : Err) (s : State) : (s.raise e).errCode = e.code := rfl
@[simp] theorem State.raise_src (e : Err) (s : State) : (s.raise e).src = s.src := rfl
@[simp] theorem State.raise_out (e : Err) (s : State) : (s.raise e).out = s.out := rfl

@[simp] theorem State.shiftOut_cfg (n : Nat) (s : State) : (s.shiftOut n).cfg = s.cfg := rfl
@[simp] theorem State.shiftOut_pins (n : Nat) (s : State) : (s.shiftOut n).pins = s.pins := rfl
@[simp] theorem State.shiftOut_fsm (n : Nat) (s : State) : (s.shiftOut n).fsm = s.fsm := rfl
@[simp] theorem State.shiftOut_strict (n : Nat) (s : State) : (s.shiftOut n).strict = s.strict := rfl
@[simp] theorem State.shiftOut_srcLen (n : Nat) (s : State) : (s.shiftOut n).srcLen = s.srcLen := rfl
@[simp] theorem State.shiftOut_inPos (n : Nat) (s : State) : (s.shiftOut n).inPos = s.inPos := rfl
@[simp] theorem State.shiftOut_padCnt (n : Nat) (s : State) : (s.shiftOut n).padCnt = s.padCnt := rfl
@[simp] theorem State.shiftOut_pads (n : Nat) (s : State) : (s.shiftOut n).pads = s.pads := rfl
@[simp] theorem State.shiftOut_bitBuf (n : Nat) (s : State) : (s.shiftOut n).bitBuf = s.bitBuf >>> n := rfl
@[simp] theorem State.shiftOut_bitCnt (n : Nat) (s : State) : (s.shiftOut n).bitCnt = s.bitCnt - BitVec.ofNat 5 n := rfl
@[simp] theorem State.shiftOut_bfinal (n : Nat) (s : State) : (s.shiftOut n).bfinal = s.bfinal := rfl
@[simp] theorem State.shiftOut_btype (n : Nat) (s : State) : (s.shiftOut n).btype = s.btype := rfl
@[simp] theorem State.shiftOut_tblSel (n : Nat) (s : State) : (s.shiftOut n).tblSel = s.tblSel := rfl
@[simp] theorem State.shiftOut_litLen (n : Nat) (s : State) : (s.shiftOut n).litLen = s.litLen := rfl
@[simp] theorem State.shiftOut_distLen (n : Nat) (s : State) : (s.shiftOut n).distLen = s.distLen := rfl
@[simp] theorem State.shiftOut_clLen (n : Nat) (s : State) : (s.shiftOut n).clLen = s.clLen := rfl
@[simp] theorem State.shiftOut_nlit (n : Nat) (s : State) : (s.shiftOut n).nlit = s.nlit := rfl
@[simp] theorem State.shiftOut_ndist (n : Nat) (s : State) : (s.shiftOut n).ndist = s.ndist := rfl
@[simp] theorem State.shiftOut_nclen (n : Nat) (s : State) : (s.shiftOut n).nclen = s.nclen := rfl
@[simp] theorem State.shiftOut_idx (n : Nat) (s : State) : (s.shiftOut n).idx = s.idx := rfl
@[simp] theorem State.shiftOut_lens (n : Nat) (s : State) : (s.shiftOut n).lens = s.lens := rfl
@[simp] theorem State.shiftOut_storedLen (n : Nat) (s : State) : (s.shiftOut n).storedLen = s.storedLen := rfl
@[simp] theorem State.shiftOut_rem (n : Nat) (s : State) : (s.shiftOut n).rem = s.rem := rfl
@[simp] theorem State.shiftOut_lsym (n : Nat) (s : State) : (s.shiftOut n).lsym = s.lsym := rfl
@[simp] theorem State.shiftOut_dsym (n : Nat) (s : State) : (s.shiftOut n).dsym = s.dsym := rfl
@[simp] theorem State.shiftOut_mlen (n : Nat) (s : State) : (s.shiftOut n).mlen = s.mlen := rfl
@[simp] theorem State.shiftOut_mdist (n : Nat) (s : State) : (s.shiftOut n).mdist = s.mdist := rfl
@[simp] theorem State.shiftOut_wpos (n : Nat) (s : State) : (s.shiftOut n).wpos = s.wpos := rfl
@[simp] theorem State.shiftOut_histLen (n : Nat) (s : State) : (s.shiftOut n).histLen = s.histLen := rfl
@[simp] theorem State.shiftOut_win (n : Nat) (s : State) : (s.shiftOut n).win = s.win := rfl
@[simp] theorem State.shiftOut_outCount (n : Nat) (s : State) : (s.shiftOut n).outCount = s.outCount := rfl
@[simp] theorem State.shiftOut_errCode (n : Nat) (s : State) : (s.shiftOut n).errCode = s.errCode := rfl
@[simp] theorem State.shiftOut_src (n : Nat) (s : State) : (s.shiftOut n).src = s.src := rfl
@[simp] theorem State.shiftOut_out (n : Nat) (s : State) : (s.shiftOut n).out = s.out := rfl

@[simp] theorem State.winPut_cfg (b : Byte) (s : State) : (s.winPut b).cfg = s.cfg := rfl
@[simp] theorem State.winPut_pins (b : Byte) (s : State) : (s.winPut b).pins = s.pins := rfl
@[simp] theorem State.winPut_fsm (b : Byte) (s : State) : (s.winPut b).fsm = s.fsm := rfl
@[simp] theorem State.winPut_strict (b : Byte) (s : State) : (s.winPut b).strict = s.strict := rfl
@[simp] theorem State.winPut_srcLen (b : Byte) (s : State) : (s.winPut b).srcLen = s.srcLen := rfl
@[simp] theorem State.winPut_inPos (b : Byte) (s : State) : (s.winPut b).inPos = s.inPos := rfl
@[simp] theorem State.winPut_padCnt (b : Byte) (s : State) : (s.winPut b).padCnt = s.padCnt := rfl
@[simp] theorem State.winPut_pads (b : Byte) (s : State) : (s.winPut b).pads = s.pads := rfl
@[simp] theorem State.winPut_bitBuf (b : Byte) (s : State) : (s.winPut b).bitBuf = s.bitBuf := rfl
@[simp] theorem State.winPut_bitCnt (b : Byte) (s : State) : (s.winPut b).bitCnt = s.bitCnt := rfl
@[simp] theorem State.winPut_bfinal (b : Byte) (s : State) : (s.winPut b).bfinal = s.bfinal := rfl
@[simp] theorem State.winPut_btype (b : Byte) (s : State) : (s.winPut b).btype = s.btype := rfl
@[simp] theorem State.winPut_tblSel (b : Byte) (s : State) : (s.winPut b).tblSel = s.tblSel := rfl
@[simp] theorem State.winPut_litLen (b : Byte) (s : State) : (s.winPut b).litLen = s.litLen := rfl
@[simp] theorem State.winPut_distLen (b : Byte) (s : State) : (s.winPut b).distLen = s.distLen := rfl
@[simp] theorem State.winPut_clLen (b : Byte) (s : State) : (s.winPut b).clLen = s.clLen := rfl
@[simp] theorem State.winPut_nlit (b : Byte) (s : State) : (s.winPut b).nlit = s.nlit := rfl
@[simp] theorem State.winPut_ndist (b : Byte) (s : State) : (s.winPut b).ndist = s.ndist := rfl
@[simp] theorem State.winPut_nclen (b : Byte) (s : State) : (s.winPut b).nclen = s.nclen := rfl
@[simp] theorem State.winPut_idx (b : Byte) (s : State) : (s.winPut b).idx = s.idx := rfl
@[simp] theorem State.winPut_lens (b : Byte) (s : State) : (s.winPut b).lens = s.lens := rfl
@[simp] theorem State.winPut_storedLen (b : Byte) (s : State) : (s.winPut b).storedLen = s.storedLen := rfl
@[simp] theorem State.winPut_rem (b : Byte) (s : State) : (s.winPut b).rem = s.rem := rfl
@[simp] theorem State.winPut_lsym (b : Byte) (s : State) : (s.winPut b).lsym = s.lsym := rfl
@[simp] theorem State.winPut_dsym (b : Byte) (s : State) : (s.winPut b).dsym = s.dsym := rfl
@[simp] theorem State.winPut_mlen (b : Byte) (s : State) : (s.winPut b).mlen = s.mlen := rfl
@[simp] theorem State.winPut_mdist (b : Byte) (s : State) : (s.winPut b).mdist = s.mdist := rfl
@[simp] theorem State.winPut_wpos (b : Byte) (s : State) : (s.winPut b).wpos = s.wpos + 1 := rfl
@[simp] theorem State.winPut_histLen (b : Byte) (s : State) : (s.winPut b).histLen = BitVec.ofNat 16 (min (s.histLen.toNat + 1) 32768) := rfl
@[simp] theorem State.winPut_win (b : Byte) (s : State) : (s.winPut b).win = Memory.write s.win s.wpos.toNat b := rfl
@[simp] theorem State.winPut_outCount (b : Byte) (s : State) : (s.winPut b).outCount = s.outCount := rfl
@[simp] theorem State.winPut_errCode (b : Byte) (s : State) : (s.winPut b).errCode = s.errCode := rfl
@[simp] theorem State.winPut_src (b : Byte) (s : State) : (s.winPut b).src = s.src := rfl
@[simp] theorem State.winPut_out (b : Byte) (s : State) : (s.winPut b).out = s.out := rfl

@[simp] theorem State.outPush_cfg (b : Byte) (s : State) : (s.outPush b).cfg = s.cfg := rfl
@[simp] theorem State.outPush_pins (b : Byte) (s : State) : (s.outPush b).pins = s.pins := rfl
@[simp] theorem State.outPush_fsm (b : Byte) (s : State) : (s.outPush b).fsm = s.fsm := rfl
@[simp] theorem State.outPush_strict (b : Byte) (s : State) : (s.outPush b).strict = s.strict := rfl
@[simp] theorem State.outPush_srcLen (b : Byte) (s : State) : (s.outPush b).srcLen = s.srcLen := rfl
@[simp] theorem State.outPush_inPos (b : Byte) (s : State) : (s.outPush b).inPos = s.inPos := rfl
@[simp] theorem State.outPush_padCnt (b : Byte) (s : State) : (s.outPush b).padCnt = s.padCnt := rfl
@[simp] theorem State.outPush_pads (b : Byte) (s : State) : (s.outPush b).pads = s.pads := rfl
@[simp] theorem State.outPush_bitBuf (b : Byte) (s : State) : (s.outPush b).bitBuf = s.bitBuf := rfl
@[simp] theorem State.outPush_bitCnt (b : Byte) (s : State) : (s.outPush b).bitCnt = s.bitCnt := rfl
@[simp] theorem State.outPush_bfinal (b : Byte) (s : State) : (s.outPush b).bfinal = s.bfinal := rfl
@[simp] theorem State.outPush_btype (b : Byte) (s : State) : (s.outPush b).btype = s.btype := rfl
@[simp] theorem State.outPush_tblSel (b : Byte) (s : State) : (s.outPush b).tblSel = s.tblSel := rfl
@[simp] theorem State.outPush_litLen (b : Byte) (s : State) : (s.outPush b).litLen = s.litLen := rfl
@[simp] theorem State.outPush_distLen (b : Byte) (s : State) : (s.outPush b).distLen = s.distLen := rfl
@[simp] theorem State.outPush_clLen (b : Byte) (s : State) : (s.outPush b).clLen = s.clLen := rfl
@[simp] theorem State.outPush_nlit (b : Byte) (s : State) : (s.outPush b).nlit = s.nlit := rfl
@[simp] theorem State.outPush_ndist (b : Byte) (s : State) : (s.outPush b).ndist = s.ndist := rfl
@[simp] theorem State.outPush_nclen (b : Byte) (s : State) : (s.outPush b).nclen = s.nclen := rfl
@[simp] theorem State.outPush_idx (b : Byte) (s : State) : (s.outPush b).idx = s.idx := rfl
@[simp] theorem State.outPush_lens (b : Byte) (s : State) : (s.outPush b).lens = s.lens := rfl
@[simp] theorem State.outPush_storedLen (b : Byte) (s : State) : (s.outPush b).storedLen = s.storedLen := rfl
@[simp] theorem State.outPush_rem (b : Byte) (s : State) : (s.outPush b).rem = s.rem := rfl
@[simp] theorem State.outPush_lsym (b : Byte) (s : State) : (s.outPush b).lsym = s.lsym := rfl
@[simp] theorem State.outPush_dsym (b : Byte) (s : State) : (s.outPush b).dsym = s.dsym := rfl
@[simp] theorem State.outPush_mlen (b : Byte) (s : State) : (s.outPush b).mlen = s.mlen := rfl
@[simp] theorem State.outPush_mdist (b : Byte) (s : State) : (s.outPush b).mdist = s.mdist := rfl
@[simp] theorem State.outPush_wpos (b : Byte) (s : State) : (s.outPush b).wpos = s.wpos := rfl
@[simp] theorem State.outPush_histLen (b : Byte) (s : State) : (s.outPush b).histLen = s.histLen := rfl
@[simp] theorem State.outPush_win (b : Byte) (s : State) : (s.outPush b).win = s.win := rfl
@[simp] theorem State.outPush_outCount (b : Byte) (s : State) : (s.outPush b).outCount = (s.outCount + 1) % 2 ^ s.cfg.outCountW := rfl
@[simp] theorem State.outPush_errCode (b : Byte) (s : State) : (s.outPush b).errCode = s.errCode := rfl
@[simp] theorem State.outPush_src (b : Byte) (s : State) : (s.outPush b).src = s.src := rfl
@[simp] theorem State.outPush_out (b : Byte) (s : State) : (s.outPush b).out = s.out ++ [b] := rfl

@[simp] theorem State.goto_cfg (f : Fsm) (s : State) : (s.goto f).cfg = s.cfg := rfl
@[simp] theorem State.goto_pins (f : Fsm) (s : State) : (s.goto f).pins = s.pins := rfl
@[simp] theorem State.goto_fsm (f : Fsm) (s : State) : (s.goto f).fsm = f.code := rfl
@[simp] theorem State.goto_strict (f : Fsm) (s : State) : (s.goto f).strict = s.strict := rfl
@[simp] theorem State.goto_srcLen (f : Fsm) (s : State) : (s.goto f).srcLen = s.srcLen := rfl
@[simp] theorem State.goto_inPos (f : Fsm) (s : State) : (s.goto f).inPos = s.inPos := rfl
@[simp] theorem State.goto_padCnt (f : Fsm) (s : State) : (s.goto f).padCnt = s.padCnt := rfl
@[simp] theorem State.goto_pads (f : Fsm) (s : State) : (s.goto f).pads = s.pads := rfl
@[simp] theorem State.goto_bitBuf (f : Fsm) (s : State) : (s.goto f).bitBuf = s.bitBuf := rfl
@[simp] theorem State.goto_bitCnt (f : Fsm) (s : State) : (s.goto f).bitCnt = s.bitCnt := rfl
@[simp] theorem State.goto_bfinal (f : Fsm) (s : State) : (s.goto f).bfinal = s.bfinal := rfl
@[simp] theorem State.goto_btype (f : Fsm) (s : State) : (s.goto f).btype = s.btype := rfl
@[simp] theorem State.goto_tblSel (f : Fsm) (s : State) : (s.goto f).tblSel = s.tblSel := rfl
@[simp] theorem State.goto_litLen (f : Fsm) (s : State) : (s.goto f).litLen = s.litLen := rfl
@[simp] theorem State.goto_distLen (f : Fsm) (s : State) : (s.goto f).distLen = s.distLen := rfl
@[simp] theorem State.goto_clLen (f : Fsm) (s : State) : (s.goto f).clLen = s.clLen := rfl
@[simp] theorem State.goto_nlit (f : Fsm) (s : State) : (s.goto f).nlit = s.nlit := rfl
@[simp] theorem State.goto_ndist (f : Fsm) (s : State) : (s.goto f).ndist = s.ndist := rfl
@[simp] theorem State.goto_nclen (f : Fsm) (s : State) : (s.goto f).nclen = s.nclen := rfl
@[simp] theorem State.goto_idx (f : Fsm) (s : State) : (s.goto f).idx = s.idx := rfl
@[simp] theorem State.goto_lens (f : Fsm) (s : State) : (s.goto f).lens = s.lens := rfl
@[simp] theorem State.goto_storedLen (f : Fsm) (s : State) : (s.goto f).storedLen = s.storedLen := rfl
@[simp] theorem State.goto_rem (f : Fsm) (s : State) : (s.goto f).rem = s.rem := rfl
@[simp] theorem State.goto_lsym (f : Fsm) (s : State) : (s.goto f).lsym = s.lsym := rfl
@[simp] theorem State.goto_dsym (f : Fsm) (s : State) : (s.goto f).dsym = s.dsym := rfl
@[simp] theorem State.goto_mlen (f : Fsm) (s : State) : (s.goto f).mlen = s.mlen := rfl
@[simp] theorem State.goto_mdist (f : Fsm) (s : State) : (s.goto f).mdist = s.mdist := rfl
@[simp] theorem State.goto_wpos (f : Fsm) (s : State) : (s.goto f).wpos = s.wpos := rfl
@[simp] theorem State.goto_histLen (f : Fsm) (s : State) : (s.goto f).histLen = s.histLen := rfl
@[simp] theorem State.goto_win (f : Fsm) (s : State) : (s.goto f).win = s.win := rfl
@[simp] theorem State.goto_outCount (f : Fsm) (s : State) : (s.goto f).outCount = s.outCount := rfl
@[simp] theorem State.goto_errCode (f : Fsm) (s : State) : (s.goto f).errCode = s.errCode := rfl
@[simp] theorem State.goto_src (f : Fsm) (s : State) : (s.goto f).src = s.src := rfl
@[simp] theorem State.goto_out (f : Fsm) (s : State) : (s.goto f).out = s.out := rfl

@[simp] theorem State.blockEnd_cfg (s : State) : s.blockEnd.cfg = s.cfg := rfl
@[simp] theorem State.blockEnd_pins (s : State) : s.blockEnd.pins = s.pins := rfl
@[simp] theorem State.blockEnd_fsm (s : State) : s.blockEnd.fsm = (if s.bfinal then Fsm.done else Fsm.hdr).code := rfl
@[simp] theorem State.blockEnd_strict (s : State) : s.blockEnd.strict = s.strict := rfl
@[simp] theorem State.blockEnd_srcLen (s : State) : s.blockEnd.srcLen = s.srcLen := rfl
@[simp] theorem State.blockEnd_inPos (s : State) : s.blockEnd.inPos = s.inPos := rfl
@[simp] theorem State.blockEnd_padCnt (s : State) : s.blockEnd.padCnt = s.padCnt := rfl
@[simp] theorem State.blockEnd_pads (s : State) : s.blockEnd.pads = s.pads := rfl
@[simp] theorem State.blockEnd_bitBuf (s : State) : s.blockEnd.bitBuf = s.bitBuf := rfl
@[simp] theorem State.blockEnd_bitCnt (s : State) : s.blockEnd.bitCnt = s.bitCnt := rfl
@[simp] theorem State.blockEnd_bfinal (s : State) : s.blockEnd.bfinal = s.bfinal := rfl
@[simp] theorem State.blockEnd_btype (s : State) : s.blockEnd.btype = s.btype := rfl
@[simp] theorem State.blockEnd_tblSel (s : State) : s.blockEnd.tblSel = s.tblSel := rfl
@[simp] theorem State.blockEnd_litLen (s : State) : s.blockEnd.litLen = s.litLen := rfl
@[simp] theorem State.blockEnd_distLen (s : State) : s.blockEnd.distLen = s.distLen := rfl
@[simp] theorem State.blockEnd_clLen (s : State) : s.blockEnd.clLen = s.clLen := rfl
@[simp] theorem State.blockEnd_nlit (s : State) : s.blockEnd.nlit = s.nlit := rfl
@[simp] theorem State.blockEnd_ndist (s : State) : s.blockEnd.ndist = s.ndist := rfl
@[simp] theorem State.blockEnd_nclen (s : State) : s.blockEnd.nclen = s.nclen := rfl
@[simp] theorem State.blockEnd_idx (s : State) : s.blockEnd.idx = s.idx := rfl
@[simp] theorem State.blockEnd_lens (s : State) : s.blockEnd.lens = s.lens := rfl
@[simp] theorem State.blockEnd_storedLen (s : State) : s.blockEnd.storedLen = s.storedLen := rfl
@[simp] theorem State.blockEnd_rem (s : State) : s.blockEnd.rem = s.rem := rfl
@[simp] theorem State.blockEnd_lsym (s : State) : s.blockEnd.lsym = s.lsym := rfl
@[simp] theorem State.blockEnd_dsym (s : State) : s.blockEnd.dsym = s.dsym := rfl
@[simp] theorem State.blockEnd_mlen (s : State) : s.blockEnd.mlen = s.mlen := rfl
@[simp] theorem State.blockEnd_mdist (s : State) : s.blockEnd.mdist = s.mdist := rfl
@[simp] theorem State.blockEnd_wpos (s : State) : s.blockEnd.wpos = s.wpos := rfl
@[simp] theorem State.blockEnd_histLen (s : State) : s.blockEnd.histLen = s.histLen := rfl
@[simp] theorem State.blockEnd_win (s : State) : s.blockEnd.win = s.win := rfl
@[simp] theorem State.blockEnd_outCount (s : State) : s.blockEnd.outCount = s.outCount := rfl
@[simp] theorem State.blockEnd_errCode (s : State) : s.blockEnd.errCode = s.errCode := rfl
@[simp] theorem State.blockEnd_src (s : State) : s.blockEnd.src = s.src := rfl
@[simp] theorem State.blockEnd_out (s : State) : s.blockEnd.out = s.out := rfl

@[simp] theorem State.start_cfg (s : State) : s.start.cfg = s.cfg := rfl
@[simp] theorem State.start_pins (s : State) : s.start.pins = s.pins := rfl
@[simp] theorem State.start_fsm (s : State) : s.start.fsm = if s.pins.srcLen % 2 ^ s.cfg.srcLenW = 0 then Fsm.done.code else Fsm.hdr.code := rfl
@[simp] theorem State.start_strict (s : State) : s.start.strict = s.pins.strict := rfl
@[simp] theorem State.start_srcLen (s : State) : s.start.srcLen = s.pins.srcLen % 2 ^ s.cfg.srcLenW := rfl
@[simp] theorem State.start_inPos (s : State) : s.start.inPos = 0 := rfl
@[simp] theorem State.start_padCnt (s : State) : s.start.padCnt = 0 := rfl
@[simp] theorem State.start_pads (s : State) : s.start.pads = 0 := rfl
@[simp] theorem State.start_bitBuf (s : State) : s.start.bitBuf = 0 := rfl
@[simp] theorem State.start_bitCnt (s : State) : s.start.bitCnt = 0 := rfl
@[simp] theorem State.start_bfinal (s : State) : s.start.bfinal = false := rfl
@[simp] theorem State.start_btype (s : State) : s.start.btype = 0 := rfl
@[simp] theorem State.start_tblSel (s : State) : s.start.tblSel = false := rfl
@[simp] theorem State.start_litLen (s : State) : s.start.litLen = s.litLen := rfl
@[simp] theorem State.start_distLen (s : State) : s.start.distLen = s.distLen := rfl
@[simp] theorem State.start_clLen (s : State) : s.start.clLen = s.clLen := rfl
@[simp] theorem State.start_nlit (s : State) : s.start.nlit = 0 := rfl
@[simp] theorem State.start_ndist (s : State) : s.start.ndist = 0 := rfl
@[simp] theorem State.start_nclen (s : State) : s.start.nclen = 0 := rfl
@[simp] theorem State.start_idx (s : State) : s.start.idx = 0 := rfl
@[simp] theorem State.start_lens (s : State) : s.start.lens = s.lens := rfl
@[simp] theorem State.start_storedLen (s : State) : s.start.storedLen = 0 := rfl
@[simp] theorem State.start_rem (s : State) : s.start.rem = 0 := rfl
@[simp] theorem State.start_lsym (s : State) : s.start.lsym = 0 := rfl
@[simp] theorem State.start_dsym (s : State) : s.start.dsym = 0 := rfl
@[simp] theorem State.start_mlen (s : State) : s.start.mlen = 0 := rfl
@[simp] theorem State.start_mdist (s : State) : s.start.mdist = 0 := rfl
@[simp] theorem State.start_wpos (s : State) : s.start.wpos = 0 := rfl
@[simp] theorem State.start_histLen (s : State) : s.start.histLen = 0 := rfl
@[simp] theorem State.start_win (s : State) : s.start.win = s.win := rfl
@[simp] theorem State.start_outCount (s : State) : s.start.outCount = 0 := rfl
@[simp] theorem State.start_errCode (s : State) : s.start.errCode = 0 := rfl
@[simp] theorem State.start_src (s : State) : s.start.src = s.src := rfl
@[simp] theorem State.start_out (s : State) : s.start.out = [] := rfl

@[simp] theorem State.ready_cfg (s : State) : s.ready.cfg = s.cfg := rfl
@[simp] theorem State.ready_pins (s : State) : s.ready.pins = { s.pins with outReady := true } := rfl
@[simp] theorem State.ready_fsm (s : State) : s.ready.fsm = s.fsm := rfl
@[simp] theorem State.ready_strict (s : State) : s.ready.strict = s.strict := rfl
@[simp] theorem State.ready_srcLen (s : State) : s.ready.srcLen = s.srcLen := rfl
@[simp] theorem State.ready_inPos (s : State) : s.ready.inPos = s.inPos := rfl
@[simp] theorem State.ready_padCnt (s : State) : s.ready.padCnt = s.padCnt := rfl
@[simp] theorem State.ready_pads (s : State) : s.ready.pads = s.pads := rfl
@[simp] theorem State.ready_bitBuf (s : State) : s.ready.bitBuf = s.bitBuf := rfl
@[simp] theorem State.ready_bitCnt (s : State) : s.ready.bitCnt = s.bitCnt := rfl
@[simp] theorem State.ready_bfinal (s : State) : s.ready.bfinal = s.bfinal := rfl
@[simp] theorem State.ready_btype (s : State) : s.ready.btype = s.btype := rfl
@[simp] theorem State.ready_tblSel (s : State) : s.ready.tblSel = s.tblSel := rfl
@[simp] theorem State.ready_litLen (s : State) : s.ready.litLen = s.litLen := rfl
@[simp] theorem State.ready_distLen (s : State) : s.ready.distLen = s.distLen := rfl
@[simp] theorem State.ready_clLen (s : State) : s.ready.clLen = s.clLen := rfl
@[simp] theorem State.ready_nlit (s : State) : s.ready.nlit = s.nlit := rfl
@[simp] theorem State.ready_ndist (s : State) : s.ready.ndist = s.ndist := rfl
@[simp] theorem State.ready_nclen (s : State) : s.ready.nclen = s.nclen := rfl
@[simp] theorem State.ready_idx (s : State) : s.ready.idx = s.idx := rfl
@[simp] theorem State.ready_lens (s : State) : s.ready.lens = s.lens := rfl
@[simp] theorem State.ready_storedLen (s : State) : s.ready.storedLen = s.storedLen := rfl
@[simp] theorem State.ready_rem (s : State) : s.ready.rem = s.rem := rfl
@[simp] theorem State.ready_lsym (s : State) : s.ready.lsym = s.lsym := rfl
@[simp] theorem State.ready_dsym (s : State) : s.ready.dsym = s.dsym := rfl
@[simp] theorem State.ready_mlen (s : State) : s.ready.mlen = s.mlen := rfl
@[simp] theorem State.ready_mdist (s : State) : s.ready.mdist = s.mdist := rfl
@[simp] theorem State.ready_wpos (s : State) : s.ready.wpos = s.wpos := rfl
@[simp] theorem State.ready_histLen (s : State) : s.ready.histLen = s.histLen := rfl
@[simp] theorem State.ready_win (s : State) : s.ready.win = s.win := rfl
@[simp] theorem State.ready_outCount (s : State) : s.ready.outCount = s.outCount := rfl
@[simp] theorem State.ready_errCode (s : State) : s.ready.errCode = s.errCode := rfl
@[simp] theorem State.ready_src (s : State) : s.ready.src = s.src := rfl
@[simp] theorem State.ready_out (s : State) : s.ready.out = s.out := rfl

@[simp] theorem State.applyReset_cfg (s : State) : s.applyReset.cfg = s.cfg := rfl
@[simp] theorem State.applyReset_pins (s : State) : s.applyReset.pins = s.pins := rfl
@[simp] theorem State.applyReset_fsm (s : State) : s.applyReset.fsm = 0 := rfl
@[simp] theorem State.applyReset_strict (s : State) : s.applyReset.strict = false := rfl
@[simp] theorem State.applyReset_srcLen (s : State) : s.applyReset.srcLen = 0 := rfl
@[simp] theorem State.applyReset_inPos (s : State) : s.applyReset.inPos = 0 := rfl
@[simp] theorem State.applyReset_padCnt (s : State) : s.applyReset.padCnt = 0 := rfl
@[simp] theorem State.applyReset_pads (s : State) : s.applyReset.pads = 0 := rfl
@[simp] theorem State.applyReset_bitBuf (s : State) : s.applyReset.bitBuf = 0 := rfl
@[simp] theorem State.applyReset_bitCnt (s : State) : s.applyReset.bitCnt = 0 := rfl
@[simp] theorem State.applyReset_bfinal (s : State) : s.applyReset.bfinal = false := rfl
@[simp] theorem State.applyReset_btype (s : State) : s.applyReset.btype = 0 := rfl
@[simp] theorem State.applyReset_tblSel (s : State) : s.applyReset.tblSel = false := rfl
@[simp] theorem State.applyReset_litLen (s : State) : s.applyReset.litLen = s.litLen := rfl
@[simp] theorem State.applyReset_distLen (s : State) : s.applyReset.distLen = s.distLen := rfl
@[simp] theorem State.applyReset_clLen (s : State) : s.applyReset.clLen = s.clLen := rfl
@[simp] theorem State.applyReset_nlit (s : State) : s.applyReset.nlit = 0 := rfl
@[simp] theorem State.applyReset_ndist (s : State) : s.applyReset.ndist = 0 := rfl
@[simp] theorem State.applyReset_nclen (s : State) : s.applyReset.nclen = 0 := rfl
@[simp] theorem State.applyReset_idx (s : State) : s.applyReset.idx = 0 := rfl
@[simp] theorem State.applyReset_lens (s : State) : s.applyReset.lens = s.lens := rfl
@[simp] theorem State.applyReset_storedLen (s : State) : s.applyReset.storedLen = 0 := rfl
@[simp] theorem State.applyReset_rem (s : State) : s.applyReset.rem = 0 := rfl
@[simp] theorem State.applyReset_lsym (s : State) : s.applyReset.lsym = 0 := rfl
@[simp] theorem State.applyReset_dsym (s : State) : s.applyReset.dsym = 0 := rfl
@[simp] theorem State.applyReset_mlen (s : State) : s.applyReset.mlen = 0 := rfl
@[simp] theorem State.applyReset_mdist (s : State) : s.applyReset.mdist = 0 := rfl
@[simp] theorem State.applyReset_wpos (s : State) : s.applyReset.wpos = 0 := rfl
@[simp] theorem State.applyReset_histLen (s : State) : s.applyReset.histLen = 0 := rfl
@[simp] theorem State.applyReset_win (s : State) : s.applyReset.win = s.win := rfl
@[simp] theorem State.applyReset_outCount (s : State) : s.applyReset.outCount = 0 := rfl
@[simp] theorem State.applyReset_errCode (s : State) : s.applyReset.errCode = 0 := rfl
@[simp] theorem State.applyReset_src (s : State) : s.applyReset.src = s.src := rfl
@[simp] theorem State.applyReset_out (s : State) : s.applyReset.out = [] := rfl

/-! The bit reader writes `IN_POS`, `PAD_CNT`, P, `BIT_BUF` and `BIT_CNT` and nothing else. -/

@[simp] theorem State.stageByte_cfg (s : State) : s.stageByte.cfg = s.cfg := by
  unfold State.stageByte State.byteIn; split <;> rfl

@[simp] theorem State.stageLoop_cfg (n k : Nat) (s : State) : (State.stageLoop n k s).cfg = s.cfg := by
  induction k generalizing s with
  | zero => rfl
  | succ k ih => unfold State.stageLoop; split <;> simp [ih]

@[simp] theorem State.staged_cfg (n : Nat) (s : State) : (s.staged n).cfg = s.cfg := State.stageLoop_cfg n 2 s

@[simp] theorem State.consumed_cfg (m n : Nat) (s : State) : (s.consumed m n).cfg = s.cfg := by
  simp [State.consumed]

@[simp] theorem State.stageByte_pins (s : State) : s.stageByte.pins = s.pins := by
  unfold State.stageByte State.byteIn; split <;> rfl

@[simp] theorem State.stageLoop_pins (n k : Nat) (s : State) : (State.stageLoop n k s).pins = s.pins := by
  induction k generalizing s with
  | zero => rfl
  | succ k ih => unfold State.stageLoop; split <;> simp [ih]

@[simp] theorem State.staged_pins (n : Nat) (s : State) : (s.staged n).pins = s.pins := State.stageLoop_pins n 2 s

@[simp] theorem State.consumed_pins (m n : Nat) (s : State) : (s.consumed m n).pins = s.pins := by
  simp [State.consumed]

@[simp] theorem State.stageByte_fsm (s : State) : s.stageByte.fsm = s.fsm := by
  unfold State.stageByte State.byteIn; split <;> rfl

@[simp] theorem State.stageLoop_fsm (n k : Nat) (s : State) : (State.stageLoop n k s).fsm = s.fsm := by
  induction k generalizing s with
  | zero => rfl
  | succ k ih => unfold State.stageLoop; split <;> simp [ih]

@[simp] theorem State.staged_fsm (n : Nat) (s : State) : (s.staged n).fsm = s.fsm := State.stageLoop_fsm n 2 s

@[simp] theorem State.consumed_fsm (m n : Nat) (s : State) : (s.consumed m n).fsm = s.fsm := by
  simp [State.consumed]

@[simp] theorem State.stageByte_strict (s : State) : s.stageByte.strict = s.strict := by
  unfold State.stageByte State.byteIn; split <;> rfl

@[simp] theorem State.stageLoop_strict (n k : Nat) (s : State) : (State.stageLoop n k s).strict = s.strict := by
  induction k generalizing s with
  | zero => rfl
  | succ k ih => unfold State.stageLoop; split <;> simp [ih]

@[simp] theorem State.staged_strict (n : Nat) (s : State) : (s.staged n).strict = s.strict := State.stageLoop_strict n 2 s

@[simp] theorem State.consumed_strict (m n : Nat) (s : State) : (s.consumed m n).strict = s.strict := by
  simp [State.consumed]

@[simp] theorem State.stageByte_srcLen (s : State) : s.stageByte.srcLen = s.srcLen := by
  unfold State.stageByte State.byteIn; split <;> rfl

@[simp] theorem State.stageLoop_srcLen (n k : Nat) (s : State) : (State.stageLoop n k s).srcLen = s.srcLen := by
  induction k generalizing s with
  | zero => rfl
  | succ k ih => unfold State.stageLoop; split <;> simp [ih]

@[simp] theorem State.staged_srcLen (n : Nat) (s : State) : (s.staged n).srcLen = s.srcLen := State.stageLoop_srcLen n 2 s

@[simp] theorem State.consumed_srcLen (m n : Nat) (s : State) : (s.consumed m n).srcLen = s.srcLen := by
  simp [State.consumed]

@[simp] theorem State.stageByte_bfinal (s : State) : s.stageByte.bfinal = s.bfinal := by
  unfold State.stageByte State.byteIn; split <;> rfl

@[simp] theorem State.stageLoop_bfinal (n k : Nat) (s : State) : (State.stageLoop n k s).bfinal = s.bfinal := by
  induction k generalizing s with
  | zero => rfl
  | succ k ih => unfold State.stageLoop; split <;> simp [ih]

@[simp] theorem State.staged_bfinal (n : Nat) (s : State) : (s.staged n).bfinal = s.bfinal := State.stageLoop_bfinal n 2 s

@[simp] theorem State.consumed_bfinal (m n : Nat) (s : State) : (s.consumed m n).bfinal = s.bfinal := by
  simp [State.consumed]

@[simp] theorem State.stageByte_btype (s : State) : s.stageByte.btype = s.btype := by
  unfold State.stageByte State.byteIn; split <;> rfl

@[simp] theorem State.stageLoop_btype (n k : Nat) (s : State) : (State.stageLoop n k s).btype = s.btype := by
  induction k generalizing s with
  | zero => rfl
  | succ k ih => unfold State.stageLoop; split <;> simp [ih]

@[simp] theorem State.staged_btype (n : Nat) (s : State) : (s.staged n).btype = s.btype := State.stageLoop_btype n 2 s

@[simp] theorem State.consumed_btype (m n : Nat) (s : State) : (s.consumed m n).btype = s.btype := by
  simp [State.consumed]

@[simp] theorem State.stageByte_tblSel (s : State) : s.stageByte.tblSel = s.tblSel := by
  unfold State.stageByte State.byteIn; split <;> rfl

@[simp] theorem State.stageLoop_tblSel (n k : Nat) (s : State) : (State.stageLoop n k s).tblSel = s.tblSel := by
  induction k generalizing s with
  | zero => rfl
  | succ k ih => unfold State.stageLoop; split <;> simp [ih]

@[simp] theorem State.staged_tblSel (n : Nat) (s : State) : (s.staged n).tblSel = s.tblSel := State.stageLoop_tblSel n 2 s

@[simp] theorem State.consumed_tblSel (m n : Nat) (s : State) : (s.consumed m n).tblSel = s.tblSel := by
  simp [State.consumed]

@[simp] theorem State.stageByte_litLen (s : State) : s.stageByte.litLen = s.litLen := by
  unfold State.stageByte State.byteIn; split <;> rfl

@[simp] theorem State.stageLoop_litLen (n k : Nat) (s : State) : (State.stageLoop n k s).litLen = s.litLen := by
  induction k generalizing s with
  | zero => rfl
  | succ k ih => unfold State.stageLoop; split <;> simp [ih]

@[simp] theorem State.staged_litLen (n : Nat) (s : State) : (s.staged n).litLen = s.litLen := State.stageLoop_litLen n 2 s

@[simp] theorem State.consumed_litLen (m n : Nat) (s : State) : (s.consumed m n).litLen = s.litLen := by
  simp [State.consumed]

@[simp] theorem State.stageByte_distLen (s : State) : s.stageByte.distLen = s.distLen := by
  unfold State.stageByte State.byteIn; split <;> rfl

@[simp] theorem State.stageLoop_distLen (n k : Nat) (s : State) : (State.stageLoop n k s).distLen = s.distLen := by
  induction k generalizing s with
  | zero => rfl
  | succ k ih => unfold State.stageLoop; split <;> simp [ih]

@[simp] theorem State.staged_distLen (n : Nat) (s : State) : (s.staged n).distLen = s.distLen := State.stageLoop_distLen n 2 s

@[simp] theorem State.consumed_distLen (m n : Nat) (s : State) : (s.consumed m n).distLen = s.distLen := by
  simp [State.consumed]

@[simp] theorem State.stageByte_clLen (s : State) : s.stageByte.clLen = s.clLen := by
  unfold State.stageByte State.byteIn; split <;> rfl

@[simp] theorem State.stageLoop_clLen (n k : Nat) (s : State) : (State.stageLoop n k s).clLen = s.clLen := by
  induction k generalizing s with
  | zero => rfl
  | succ k ih => unfold State.stageLoop; split <;> simp [ih]

@[simp] theorem State.staged_clLen (n : Nat) (s : State) : (s.staged n).clLen = s.clLen := State.stageLoop_clLen n 2 s

@[simp] theorem State.consumed_clLen (m n : Nat) (s : State) : (s.consumed m n).clLen = s.clLen := by
  simp [State.consumed]

@[simp] theorem State.stageByte_nlit (s : State) : s.stageByte.nlit = s.nlit := by
  unfold State.stageByte State.byteIn; split <;> rfl

@[simp] theorem State.stageLoop_nlit (n k : Nat) (s : State) : (State.stageLoop n k s).nlit = s.nlit := by
  induction k generalizing s with
  | zero => rfl
  | succ k ih => unfold State.stageLoop; split <;> simp [ih]

@[simp] theorem State.staged_nlit (n : Nat) (s : State) : (s.staged n).nlit = s.nlit := State.stageLoop_nlit n 2 s

@[simp] theorem State.consumed_nlit (m n : Nat) (s : State) : (s.consumed m n).nlit = s.nlit := by
  simp [State.consumed]

@[simp] theorem State.stageByte_ndist (s : State) : s.stageByte.ndist = s.ndist := by
  unfold State.stageByte State.byteIn; split <;> rfl

@[simp] theorem State.stageLoop_ndist (n k : Nat) (s : State) : (State.stageLoop n k s).ndist = s.ndist := by
  induction k generalizing s with
  | zero => rfl
  | succ k ih => unfold State.stageLoop; split <;> simp [ih]

@[simp] theorem State.staged_ndist (n : Nat) (s : State) : (s.staged n).ndist = s.ndist := State.stageLoop_ndist n 2 s

@[simp] theorem State.consumed_ndist (m n : Nat) (s : State) : (s.consumed m n).ndist = s.ndist := by
  simp [State.consumed]

@[simp] theorem State.stageByte_nclen (s : State) : s.stageByte.nclen = s.nclen := by
  unfold State.stageByte State.byteIn; split <;> rfl

@[simp] theorem State.stageLoop_nclen (n k : Nat) (s : State) : (State.stageLoop n k s).nclen = s.nclen := by
  induction k generalizing s with
  | zero => rfl
  | succ k ih => unfold State.stageLoop; split <;> simp [ih]

@[simp] theorem State.staged_nclen (n : Nat) (s : State) : (s.staged n).nclen = s.nclen := State.stageLoop_nclen n 2 s

@[simp] theorem State.consumed_nclen (m n : Nat) (s : State) : (s.consumed m n).nclen = s.nclen := by
  simp [State.consumed]

@[simp] theorem State.stageByte_idx (s : State) : s.stageByte.idx = s.idx := by
  unfold State.stageByte State.byteIn; split <;> rfl

@[simp] theorem State.stageLoop_idx (n k : Nat) (s : State) : (State.stageLoop n k s).idx = s.idx := by
  induction k generalizing s with
  | zero => rfl
  | succ k ih => unfold State.stageLoop; split <;> simp [ih]

@[simp] theorem State.staged_idx (n : Nat) (s : State) : (s.staged n).idx = s.idx := State.stageLoop_idx n 2 s

@[simp] theorem State.consumed_idx (m n : Nat) (s : State) : (s.consumed m n).idx = s.idx := by
  simp [State.consumed]

@[simp] theorem State.stageByte_lens (s : State) : s.stageByte.lens = s.lens := by
  unfold State.stageByte State.byteIn; split <;> rfl

@[simp] theorem State.stageLoop_lens (n k : Nat) (s : State) : (State.stageLoop n k s).lens = s.lens := by
  induction k generalizing s with
  | zero => rfl
  | succ k ih => unfold State.stageLoop; split <;> simp [ih]

@[simp] theorem State.staged_lens (n : Nat) (s : State) : (s.staged n).lens = s.lens := State.stageLoop_lens n 2 s

@[simp] theorem State.consumed_lens (m n : Nat) (s : State) : (s.consumed m n).lens = s.lens := by
  simp [State.consumed]

@[simp] theorem State.stageByte_storedLen (s : State) : s.stageByte.storedLen = s.storedLen := by
  unfold State.stageByte State.byteIn; split <;> rfl

@[simp] theorem State.stageLoop_storedLen (n k : Nat) (s : State) : (State.stageLoop n k s).storedLen = s.storedLen := by
  induction k generalizing s with
  | zero => rfl
  | succ k ih => unfold State.stageLoop; split <;> simp [ih]

@[simp] theorem State.staged_storedLen (n : Nat) (s : State) : (s.staged n).storedLen = s.storedLen := State.stageLoop_storedLen n 2 s

@[simp] theorem State.consumed_storedLen (m n : Nat) (s : State) : (s.consumed m n).storedLen = s.storedLen := by
  simp [State.consumed]

@[simp] theorem State.stageByte_rem (s : State) : s.stageByte.rem = s.rem := by
  unfold State.stageByte State.byteIn; split <;> rfl

@[simp] theorem State.stageLoop_rem (n k : Nat) (s : State) : (State.stageLoop n k s).rem = s.rem := by
  induction k generalizing s with
  | zero => rfl
  | succ k ih => unfold State.stageLoop; split <;> simp [ih]

@[simp] theorem State.staged_rem (n : Nat) (s : State) : (s.staged n).rem = s.rem := State.stageLoop_rem n 2 s

@[simp] theorem State.consumed_rem (m n : Nat) (s : State) : (s.consumed m n).rem = s.rem := by
  simp [State.consumed]

@[simp] theorem State.stageByte_lsym (s : State) : s.stageByte.lsym = s.lsym := by
  unfold State.stageByte State.byteIn; split <;> rfl

@[simp] theorem State.stageLoop_lsym (n k : Nat) (s : State) : (State.stageLoop n k s).lsym = s.lsym := by
  induction k generalizing s with
  | zero => rfl
  | succ k ih => unfold State.stageLoop; split <;> simp [ih]

@[simp] theorem State.staged_lsym (n : Nat) (s : State) : (s.staged n).lsym = s.lsym := State.stageLoop_lsym n 2 s

@[simp] theorem State.consumed_lsym (m n : Nat) (s : State) : (s.consumed m n).lsym = s.lsym := by
  simp [State.consumed]

@[simp] theorem State.stageByte_dsym (s : State) : s.stageByte.dsym = s.dsym := by
  unfold State.stageByte State.byteIn; split <;> rfl

@[simp] theorem State.stageLoop_dsym (n k : Nat) (s : State) : (State.stageLoop n k s).dsym = s.dsym := by
  induction k generalizing s with
  | zero => rfl
  | succ k ih => unfold State.stageLoop; split <;> simp [ih]

@[simp] theorem State.staged_dsym (n : Nat) (s : State) : (s.staged n).dsym = s.dsym := State.stageLoop_dsym n 2 s

@[simp] theorem State.consumed_dsym (m n : Nat) (s : State) : (s.consumed m n).dsym = s.dsym := by
  simp [State.consumed]

@[simp] theorem State.stageByte_mlen (s : State) : s.stageByte.mlen = s.mlen := by
  unfold State.stageByte State.byteIn; split <;> rfl

@[simp] theorem State.stageLoop_mlen (n k : Nat) (s : State) : (State.stageLoop n k s).mlen = s.mlen := by
  induction k generalizing s with
  | zero => rfl
  | succ k ih => unfold State.stageLoop; split <;> simp [ih]

@[simp] theorem State.staged_mlen (n : Nat) (s : State) : (s.staged n).mlen = s.mlen := State.stageLoop_mlen n 2 s

@[simp] theorem State.consumed_mlen (m n : Nat) (s : State) : (s.consumed m n).mlen = s.mlen := by
  simp [State.consumed]

@[simp] theorem State.stageByte_mdist (s : State) : s.stageByte.mdist = s.mdist := by
  unfold State.stageByte State.byteIn; split <;> rfl

@[simp] theorem State.stageLoop_mdist (n k : Nat) (s : State) : (State.stageLoop n k s).mdist = s.mdist := by
  induction k generalizing s with
  | zero => rfl
  | succ k ih => unfold State.stageLoop; split <;> simp [ih]

@[simp] theorem State.staged_mdist (n : Nat) (s : State) : (s.staged n).mdist = s.mdist := State.stageLoop_mdist n 2 s

@[simp] theorem State.consumed_mdist (m n : Nat) (s : State) : (s.consumed m n).mdist = s.mdist := by
  simp [State.consumed]

@[simp] theorem State.stageByte_wpos (s : State) : s.stageByte.wpos = s.wpos := by
  unfold State.stageByte State.byteIn; split <;> rfl

@[simp] theorem State.stageLoop_wpos (n k : Nat) (s : State) : (State.stageLoop n k s).wpos = s.wpos := by
  induction k generalizing s with
  | zero => rfl
  | succ k ih => unfold State.stageLoop; split <;> simp [ih]

@[simp] theorem State.staged_wpos (n : Nat) (s : State) : (s.staged n).wpos = s.wpos := State.stageLoop_wpos n 2 s

@[simp] theorem State.consumed_wpos (m n : Nat) (s : State) : (s.consumed m n).wpos = s.wpos := by
  simp [State.consumed]

@[simp] theorem State.stageByte_histLen (s : State) : s.stageByte.histLen = s.histLen := by
  unfold State.stageByte State.byteIn; split <;> rfl

@[simp] theorem State.stageLoop_histLen (n k : Nat) (s : State) : (State.stageLoop n k s).histLen = s.histLen := by
  induction k generalizing s with
  | zero => rfl
  | succ k ih => unfold State.stageLoop; split <;> simp [ih]

@[simp] theorem State.staged_histLen (n : Nat) (s : State) : (s.staged n).histLen = s.histLen := State.stageLoop_histLen n 2 s

@[simp] theorem State.consumed_histLen (m n : Nat) (s : State) : (s.consumed m n).histLen = s.histLen := by
  simp [State.consumed]

@[simp] theorem State.stageByte_win (s : State) : s.stageByte.win = s.win := by
  unfold State.stageByte State.byteIn; split <;> rfl

@[simp] theorem State.stageLoop_win (n k : Nat) (s : State) : (State.stageLoop n k s).win = s.win := by
  induction k generalizing s with
  | zero => rfl
  | succ k ih => unfold State.stageLoop; split <;> simp [ih]

@[simp] theorem State.staged_win (n : Nat) (s : State) : (s.staged n).win = s.win := State.stageLoop_win n 2 s

@[simp] theorem State.consumed_win (m n : Nat) (s : State) : (s.consumed m n).win = s.win := by
  simp [State.consumed]

@[simp] theorem State.stageByte_outCount (s : State) : s.stageByte.outCount = s.outCount := by
  unfold State.stageByte State.byteIn; split <;> rfl

@[simp] theorem State.stageLoop_outCount (n k : Nat) (s : State) : (State.stageLoop n k s).outCount = s.outCount := by
  induction k generalizing s with
  | zero => rfl
  | succ k ih => unfold State.stageLoop; split <;> simp [ih]

@[simp] theorem State.staged_outCount (n : Nat) (s : State) : (s.staged n).outCount = s.outCount := State.stageLoop_outCount n 2 s

@[simp] theorem State.consumed_outCount (m n : Nat) (s : State) : (s.consumed m n).outCount = s.outCount := by
  simp [State.consumed]

@[simp] theorem State.stageByte_errCode (s : State) : s.stageByte.errCode = s.errCode := by
  unfold State.stageByte State.byteIn; split <;> rfl

@[simp] theorem State.stageLoop_errCode (n k : Nat) (s : State) : (State.stageLoop n k s).errCode = s.errCode := by
  induction k generalizing s with
  | zero => rfl
  | succ k ih => unfold State.stageLoop; split <;> simp [ih]

@[simp] theorem State.staged_errCode (n : Nat) (s : State) : (s.staged n).errCode = s.errCode := State.stageLoop_errCode n 2 s

@[simp] theorem State.consumed_errCode (m n : Nat) (s : State) : (s.consumed m n).errCode = s.errCode := by
  simp [State.consumed]

@[simp] theorem State.stageByte_src (s : State) : s.stageByte.src = s.src := by
  unfold State.stageByte State.byteIn; split <;> rfl

@[simp] theorem State.stageLoop_src (n k : Nat) (s : State) : (State.stageLoop n k s).src = s.src := by
  induction k generalizing s with
  | zero => rfl
  | succ k ih => unfold State.stageLoop; split <;> simp [ih]

@[simp] theorem State.staged_src (n : Nat) (s : State) : (s.staged n).src = s.src := State.stageLoop_src n 2 s

@[simp] theorem State.consumed_src (m n : Nat) (s : State) : (s.consumed m n).src = s.src := by
  simp [State.consumed]

@[simp] theorem State.stageByte_out (s : State) : s.stageByte.out = s.out := by
  unfold State.stageByte State.byteIn; split <;> rfl

@[simp] theorem State.stageLoop_out (n k : Nat) (s : State) : (State.stageLoop n k s).out = s.out := by
  induction k generalizing s with
  | zero => rfl
  | succ k ih => unfold State.stageLoop; split <;> simp [ih]

@[simp] theorem State.staged_out (n : Nat) (s : State) : (s.staged n).out = s.out := State.stageLoop_out n 2 s

@[simp] theorem State.consumed_out (m n : Nat) (s : State) : (s.consumed m n).out = s.out := by
  simp [State.consumed]

@[simp] theorem State.stageByte_bitBuf (s : State) :
    s.stageByte.bitBuf = s.bitBuf ||| (s.byteIn.1.setWidth 32 <<< s.bitCnt.toNat) := rfl

@[simp] theorem State.stageByte_bitCnt (s : State) : s.stageByte.bitCnt = s.bitCnt + 8 := rfl

end Sys2Proof.Machine
end

