-- ==== Sys2Proof/Laws/Ops.lean ====
section
/-! SUPPORT. What each shared operation can do, said once. -/

namespace Sys2Proof.Machine

/-! ### Outcomes -/

@[simp] theorem ok_bind {α β : Type} (a : α) (k : α → Except Stop β) : (Except.ok a >>= k) = k a := rfl

@[simp] theorem error_bind {α β : Type} (e : Stop) (k : α → Except Stop β) :
    ((Except.error e : Except Stop α) >>= k) = Except.error e := rfl

/-- A step ends in a next state by an advance, a raise or a hold. -/
theorem finish_eq_next {s t : State} {r : Except Stop State} (h : finish s r = .next t) :
    r = .ok t ∨ (∃ e, r = .error (.raise e) ∧ t = s.raise e) ∨ (r = .error .hold ∧ t = s) := by
  match r with
  | .ok u => exact .inl (by cases h; rfl)
  | .error (.raise e) => exact .inr (.inl ⟨e, rfl, by cases h; rfl⟩)
  | .error .hold => exact .inr (.inr ⟨rfl, by cases h; rfl⟩)
  | .error (.fault f) => cases h

@[simp] theorem finish_ok (s t : State) : finish s (.ok t) = .next t := rfl
@[simp] theorem finish_raise (s : State) (e : Err) : finish s (.error (.raise e)) = .next (s.raise e) := rfl
@[simp] theorem finish_hold (s : State) : finish s (.error .hold) = .next s := rfl
@[simp] theorem finish_fault (s : State) (f : Fault) : finish s (.error (.fault f)) = .fault f := rfl

theorem inState_of {f : Fsm} {s : State} (h : s.fsm = f.code) (k : Except Stop State) : inState f s k = finish s k :=
  if_pos h

/-- An element has a next state only in the FSM state that decodes it. -/
theorem inState_eq_next {f : Fsm} {s t : State} {k : Except Stop State} (h : inState f s k = .next t) :
    s.fsm = f.code ∧ finish s k = .next t := by
  unfold inState at h
  split at h
  · exact ⟨‹_›, h⟩
  · cases h

@[simp] theorem Fsm.ofCode_code (f : Fsm) : Fsm.ofCode f.code = some f := by cases f <;> rfl

theorem Fsm.ofCode_eq_some {c : BitVec 5} {f : Fsm} (h : Fsm.ofCode c = some f) : c = f.code := by
  revert h; revert c; cases f <;> decide

theorem Fsm.code_injective {f g : Fsm} (h : f.code = g.code) : f = g := by
  have := congrArg Fsm.ofCode h
  simpa using this

theorem Err.code_ne_zero (e : Err) : e.code ≠ 0 := by cases e <;> decide

/-! ### The bit reader -/

theorem State.stageByte_bitCnt_toNat {s : State} (h : s.bitCnt.toNat < 16) :
    s.stageByte.bitCnt.toNat = s.bitCnt.toNat + 8 := by
  have : (8 : BitVec 5).toNat = 8 := rfl
  rw [State.stageByte_bitCnt, BitVec.toNat_add, this, Nat.mod_eq_of_lt (by omega)]

theorem State.staged_of_le {n : Nat} {s : State} (h : n ≤ s.bitCnt.toNat) : s.staged n = s := by
  have : ¬s.bitCnt.toNat < n := by omega
  simp [State.staged, State.stageLoop, this]

/-- `NeedBits(n)` stages at least `n` bits (R151). -/
theorem State.le_staged_bitCnt {n : Nat} (hn : n ≤ 16) (s : State) : n ≤ (s.staged n).bitCnt.toNat := by
  simp only [State.staged, State.stageLoop]
  by_cases h : s.bitCnt.toNat < n
  · have h1 := State.stageByte_bitCnt_toNat (s := s) (by omega)
    by_cases h2 : s.stageByte.bitCnt.toNat < n
    · have h3 := State.stageByte_bitCnt_toNat (s := s.stageByte) (by omega)
      rw [if_pos h, if_pos h2]; omega
    · rw [if_pos h, if_neg h2]; omega
  · rw [if_neg h]; omega

/-- After `NeedBits(n)` at most n + 7 bits are staged, or what was staged before (R151). -/
theorem State.staged_bitCnt_le {n : Nat} (hn : n ≤ 16) (s : State) :
    (s.staged n).bitCnt.toNat ≤ max s.bitCnt.toNat (n + 7) := by
  simp only [State.staged, State.stageLoop]
  by_cases h : s.bitCnt.toNat < n
  · have h1 := State.stageByte_bitCnt_toNat (s := s) (by omega)
    by_cases h2 : s.stageByte.bitCnt.toNat < n
    · have h3 := State.stageByte_bitCnt_toNat (s := s.stageByte) (by omega)
      rw [if_pos h, if_pos h2]; omega
    · rw [if_pos h, if_neg h2]; omega
  · rw [if_neg h]; omega

theorem needBits_of_le {n : Nat} (hn : n ≤ 16) (s : State) : needBits n s = .ok (s.staged n) := if_pos hn

theorem getBits_of_le {n : Nat} {s : State} (h : n ≤ s.bitCnt.toNat) : getBits n s = .ok (s.bitBuf.toNat % 2 ^ n) :=
  if_pos h

theorem dropBits_of_le {n : Nat} {s : State} (h : n ≤ s.bitCnt.toNat) :
    dropBits n s = if (s.shiftOut n).truncated then .error (.raise .truncatedInput) else .ok (s.shiftOut n) := if_pos h

/-- `NeedBits(m)` and `DropBits(n)`, n ≤ m ≤ 16, consume or raise TruncatedInput; they never fault. -/
theorem consume_eq {m n : Nat} (hm : m ≤ 16) (hn : n ≤ m) (s : State) :
    consume m n s =
      if (s.consumed m n).truncated then .error (.raise .truncatedInput) else .ok (s.consumed m n) := by
  simp only [consume, needBits_of_le hm, ok_bind]
  exact dropBits_of_le (Nat.le_trans hn (State.le_staged_bitCnt hm s))

theorem consume_eq_ok {m n : Nat} {s t : State} (hm : m ≤ 16) (hn : n ≤ m) (h : consume m n s = .ok t) :
    t = s.consumed m n ∧ (s.consumed m n).truncated = false := by
  rw [consume_eq hm hn] at h
  cases hb : (s.consumed m n).truncated with
  | true => simp [hb] at h
  | false => exact ⟨by simpa [hb] using h.symm, rfl⟩

/-- `ReadBits(n)`, n ≤ 16 (R156): the value of the staged bits, and `consume n n`. -/
theorem readBits_eq {n : Nat} (hn : n ≤ 16) (s : State) :
    readBits n s =
      if (s.consumed n n).truncated then .error (.raise .truncatedInput)
      else .ok ((s.staged n).bitBuf.toNat % 2 ^ n, s.consumed n n) := by
  have h := State.le_staged_bitCnt hn s
  simp only [readBits, needBits_of_le hn, ok_bind, getBits_of_le h, dropBits_of_le h]
  rw [show (s.staged n).shiftOut n = s.consumed n n from rfl]
  split <;> rfl

/-- The code of a symbol is consumed, or TruncatedInput is raised, or the symbol has no code (R189, R190). -/
theorem consumeCode_eq {L : List Nat} {maxb sym : Nat} (hm : maxb ≤ 16) (hL : codeLen L sym ≤ maxb) (s : State) :
    consumeCode L maxb sym s =
      if codeLen L sym = 0 then .error (.raise .unsupportedSymbol)
      else if (s.consumed maxb (codeLen L sym)).truncated then .error (.raise .truncatedInput)
      else .ok (s.consumed maxb (codeLen L sym)) := by
  simp only [consumeCode, needBits_of_le hm, ok_bind]
  split
  · rfl
  · exact dropBits_of_le (Nat.le_trans hL (State.le_staged_bitCnt hm s))

/-! ### Code lengths -/

theorem codeLen_natLens_lt {n w : Nat} (v : Vector (BitVec w) n) (s : Nat) : codeLen (natLens v) s < 2 ^ w := by
  unfold codeLen natLens
  rw [List.getD_eq_getElem?_getD, List.getElem?_map]
  cases h : v.toList[s]? with
  | none => simp
  | some x => simpa using x.isLt

theorem codeLen_clTable_le (s : State) (sym : Nat) : codeLen s.clTable sym ≤ 7 := by
  have := codeLen_natLens_lt s.clLen sym
  simp only [State.clTable]; omega

theorem codeLen_le_of_all {L : List Nat} {m : Nat} (h : ∀ x ∈ L, x ≤ m) (s : Nat) : codeLen L s ≤ m := by
  unfold codeLen
  rw [List.getD_eq_getElem?_getD]
  cases hs : L[s]? with
  | none => simp
  | some x => simpa using h x (List.mem_of_getElem? hs)

theorem codeLen_litTable_le (s : State) (sym : Nat) : codeLen s.litTable sym ≤ 15 := by
  unfold State.litTable
  split
  · exact codeLen_le_of_all (by simp only [fixedLitLen, List.mem_append, List.mem_replicate]; omega) sym
  · have := codeLen_natLens_lt s.litLen sym; omega

theorem codeLen_distTable_le (s : State) (sym : Nat) : codeLen s.distTable sym ≤ 15 := by
  unfold State.distTable
  split
  · exact codeLen_le_of_all (by simp only [fixedDistLen, List.mem_append, List.mem_replicate]; omega) sym
  · have := codeLen_natLens_lt s.distLen sym; omega

/-! ### Producing a byte -/

/-- A byte is produced into the window and the output together, or the step holds (R275, R83). -/
theorem produce_eq_ok {b : Byte} {s t : State} (h : produce b s = .ok t) :
    s.pins.outReady = true ∧ t = (s.winPut b).outPush b := by
  unfold produce at h
  split at h
  · exact ⟨‹_›, by cases h; rfl⟩
  · cases h

theorem produce_of_ready {b : Byte} {s : State} (h : s.pins.outReady = true) :
    produce b s = .ok ((s.winPut b).outPush b) := if_pos h

/-! ### The shared steps of the elements -/

/-- A block header advances in HDR alone, with both reads done (R220). -/
theorem header_eq_next {f : Bool} {t : BitVec 2} {g : Fsm} {s u : State} (h : header f t g s = .next u) :
    s.fsm = Fsm.hdr.code ∧
      (u = s.raise .truncatedInput ∨
        u = { (s.consumed 1 1).consumed 2 2 with bfinal := f, btype := t, fsm := g.code }) := by
  obtain ⟨hf, h⟩ := inState_eq_next h
  refine ⟨hf, ?_⟩
  simp only [readHeader, consume_eq (show 1 ≤ 16 by omega) (Nat.le_refl 1)] at h
  split at h
  · exact .inl (by simpa using h.symm)
  · simp only [ok_bind, consume_eq (show 2 ≤ 16 by omega) (Nat.le_refl 2)] at h
    split at h
    · exact .inl (by simpa using h.symm)
    · exact .inr (by simpa [pure, Except.pure] using h.symm)

/-- Every entry after `LENS[i .. i+r-1] <- v` (R235). -/
theorem fillLens_getElem (v : BitVec 4) (r : Nat) (lens : Vector (BitVec 4) 316) (i k : Nat) (hk : k < 316) :
    (fillLens lens v i r)[k] = if i ≤ k ∧ k < i + r then v else lens[k] := by
  induction r generalizing lens i with
  | zero => simp [fillLens, show ¬(i ≤ k ∧ k < i) by omega]
  | succ r ih =>
    rw [fillLens, ih, Vector.getElem_setIfInBounds]
    split <;> split <;> (try split) <;> first | rfl | omega

/-- What writing code lengths does (R235, R240). -/
theorem putLengths_eq_ok {v : BitVec 4} {r : Nat} {s t : State} (h : putLengths v r s = .ok t) :
    s.idx.toNat + r ≤ s.lensTotal ∧ s.idx.toNat + r ≤ 316 ∧
      t = { s with
        lens := fillLens s.lens v s.idx.toNat r
        idx := BitVec.ofNat 9 (s.idx.toNat + r)
        fsm := if s.idx.toNat + r = s.lensTotal then Fsm.dynBuild.code else Fsm.dynLens.code } := by
  unfold putLengths at h
  split at h
  · cases h
  · split at h
    · cases h
    · exact ⟨by omega, by omega, by cases h; rfl⟩

/-- The two steps of a length element (R270, R272). -/
theorem lengthElement_eq_next {sym base e x : Nat} (he : e ≤ 16) {s t : State}
    (h : lengthElement sym base e x s = .next t) :
    (s.fsm = Fsm.sym.code ∧
      (t = s.raise .unsupportedSymbol ∨ t = s.raise .truncatedInput ∨
        t = { s.consumed 15 (codeLen s.litTable sym) with lsym := BitVec.ofNat 9 sym, fsm := Fsm.lenExtra.code })) ∨
    (s.fsm = Fsm.lenExtra.code ∧ s.lsym.toNat = sym ∧
      (t = s.raise .truncatedInput ∨
        t = { s.consumed e e with mlen := BitVec.ofNat 9 (base + x), fsm := Fsm.distSym.code })) := by
  unfold lengthElement at h
  split at h
  · next hf =>
    refine .inl ⟨hf, ?_⟩
    rw [consumeCode_eq (by omega) (codeLen_litTable_le s sym)] at h
    split at h
    · exact .inl (by simpa using h.symm)
    · split at h
      · exact .inr (.inl (by simpa using h.symm))
      · exact .inr (.inr (by simpa [pure, Except.pure] using h.symm))
  · split at h
    · next hf =>
      refine .inr ⟨hf.1, hf.2, ?_⟩
      rw [consume_eq he (Nat.le_refl e)] at h
      split at h
      · exact .inl (by simpa using h.symm)
      · exact .inr (by simpa [pure, Except.pure] using h.symm)
    · cases h

/-- The two steps of a distance element (R273, R274). -/
theorem distElement_eq_next {t base e y : Nat} (he : e ≤ 16) {s u : State} (h : distElement t base e y s = .next u) :
    (s.fsm = Fsm.distSym.code ∧
      (u = s.raise .unsupportedSymbol ∨ u = s.raise .truncatedInput ∨
        u = { s.consumed 15 (codeLen s.distTable t) with dsym := BitVec.ofNat 5 t, fsm := Fsm.distExtra.code })) ∨
    (s.fsm = Fsm.distExtra.code ∧ s.dsym.toNat = t ∧
      (u = s.raise .truncatedInput ∨ (s.histLen.toNat < base + y ∧ u = s.raise .invalidBackReference) ∨
        (base + y ≤ s.histLen.toNat ∧
          u = { s.consumed e e with
            mdist := BitVec.ofNat 16 (base + y), rem := s.mlen.setWidth 16, fsm := Fsm.copy.code }))) := by
  unfold distElement at h
  split at h
  · next hf =>
    refine .inl ⟨hf, ?_⟩
    rw [consumeCode_eq (by omega) (codeLen_distTable_le s t)] at h
    split at h
    · exact .inl (by simpa using h.symm)
    · split at h
      · exact .inr (.inl (by simpa using h.symm))
      · exact .inr (.inr (by simpa [pure, Except.pure] using h.symm))
  · split at h
    · next hf =>
      refine .inr ⟨hf.1, hf.2, ?_⟩
      rw [consume_eq he (Nat.le_refl e)] at h
      split at h
      · exact .inl (by simpa using h.symm)
      · simp only [ok_bind] at h
        split at h
        · next hd => exact .inr (.inl ⟨hd, by simpa [throw, throwThe, MonadExceptOf.throw] using h.symm⟩)
        · next hd => exact .inr (.inr ⟨by omega, by simpa [pure, Except.pure] using h.symm⟩)
    · cases h

/-- A literal/length symbol without a meaning always raises (R278). -/
theorem noLength_eq_next {sym : Nat} {s t : State} (h : noLength sym s = .next t) :
    s.fsm = Fsm.sym.code ∧ (t = s.raise .unsupportedSymbol ∨ t = s.raise .truncatedInput) := by
  obtain ⟨hf, h⟩ := inState_eq_next h
  refine ⟨hf, ?_⟩
  rw [consumeCode_eq (by omega) (codeLen_litTable_le s sym)] at h
  split at h
  · exact .inl (by simpa using h.symm)
  · split at h
    · exact .inr (by simpa using h.symm)
    · exact .inl (by simpa [throw, throwThe, MonadExceptOf.throw] using h.symm)

/-- A distance symbol without a meaning always raises (R340). -/
theorem noDistance_eq_next {sym : Nat} {s t : State} (h : noDistance sym s = .next t) :
    s.fsm = Fsm.distSym.code ∧ (t = s.raise .unsupportedSymbol ∨ t = s.raise .truncatedInput) := by
  obtain ⟨hf, h⟩ := inState_eq_next h
  refine ⟨hf, ?_⟩
  rw [consumeCode_eq (by omega) (codeLen_distTable_le s sym)] at h
  split at h
  · exact .inl (by simpa using h.symm)
  · split at h
    · exact .inr (by simpa using h.symm)
    · exact .inl (by simpa [throw, throwThe, MonadExceptOf.throw] using h.symm)

/-! ### The step -/

theorem State.atRest_code {s : State} {f : Fsm} (h : s.fsm = f.code) :
    s.atRest = (decide (f = .idle) || decide (f = .done) || decide (f = .error)) := by
  unfold State.atRest; rw [h]; cases f <;> rfl

theorem step_of_rst {s : State} (h : s.pins.rst = true) : step s = .next s.applyReset := by
  simp [step, stepCore, h]

theorem step_of_start {s : State} (h : s.pins.rst = false) (h1 : s.pins.start = true) (h2 : s.atRest = true) :
    step s = .next s.start := by
  simp [step, stepCore, h, h1, h2]

/-- Neither reset nor an accepted START: the step of the FSM state (R403). -/
theorem step_of_fsm {s : State} {f : Fsm} (h : s.pins.rst = false) (h1 : (s.pins.start && s.atRest) = false)
    (hf : s.fsm = f.code) : step s = stepOf f s := by
  simp [step, stepCore, h, h1, hf]

/-- While a call runs START is ignored, so the step is that of the FSM state (R402). -/
theorem step_of_busy {s : State} {f : Fsm} (h : s.pins.rst = false) (hf : s.fsm = f.code)
    (hb : f ≠ .idle ∧ f ≠ .done ∧ f ≠ .error) : step s = stepOf f s :=
  step_of_fsm h (by rw [State.atRest_code hf]; simp [hb]) hf

/-- What a step is. -/
theorem step_cases (s : State) :
    (s.pins.rst = true ∧ step s = .next s.applyReset) ∨
    (s.pins.rst = false ∧ s.pins.start = true ∧ s.atRest = true ∧ step s = .next s.start) ∨
    (s.pins.rst = false ∧ (s.pins.start && s.atRest) = false ∧
      ((Fsm.ofCode s.fsm = none ∧ step s = .fault .fsmUnused) ∨
        ∃ f, s.fsm = f.code ∧ step s = stepOf f s)) := by
  cases hr : s.pins.rst with
  | true => exact .inl ⟨rfl, step_of_rst hr⟩
  | false =>
    refine .inr ?_
    cases hs : s.pins.start && s.atRest with
    | true =>
      simp only [Bool.and_eq_true] at hs
      exact .inl ⟨rfl, hs.1, hs.2, step_of_start hr hs.1 hs.2⟩
    | false =>
      refine .inr ⟨rfl, rfl, ?_⟩
      cases hf : Fsm.ofCode s.fsm with
      | none => exact .inl ⟨rfl, by simp [step, stepCore, hr, hs, hf]⟩
      | some f => exact .inr ⟨f, Fsm.ofCode_eq_some hf, step_of_fsm hr hs (Fsm.ofCode_eq_some hf)⟩

end Sys2Proof.Machine
end

