-- ==== Sys2Proof/Laws/PerInstr.lean ====
section
/-! SUPPORT. Per instruction: the extra bits of a well-formed element, after its symbol, read back as the element, in
each alphabet that has its symbol (30_encoding.md rules R105, R106, R110 to R112). -/

namespace Sys2Proof

theorem litLenElement_of_lt {s : Nat} (h : s < 256) (bits : List Bool) :
    litLenElement s bits = some (.lit (BitVec.ofNat 8 s), bits) := by
  unfold litLenElement
  split <;> first | omega | simp [h]

theorem clElement_of_lt {s : Nat} (h : s < 16) (bits : List Bool) :
    clElement s bits = some (.clLen (BitVec.ofNat 4 s), bits) := by
  unfold clElement
  split <;> first | omega | simp [h]

namespace Laws.FieldRoundTrip

/-- The element's symbol and extra bits decode to the element, whatever follows. -/
def Statement (i : Instr) : Prop :=
  i.wellFormed = true → ∀ rest : List Bool,
    (∀ s, i.clSymbol = some s → clElement s (i.extraBits ++ rest) = some (i, rest)) ∧
    (∀ s, i.litLenSymbol = some s → litLenElement s (i.extraBits ++ rest) = some (i, rest)) ∧
    (∀ t, i.distSymbol = some t → distElement t (i.extraBits ++ rest) = some (i, rest))

/-- An element of the code-length alphabet alone. -/
theorem of_cl {i : Instr} {s : Nat} (hc : i.clSymbol = some s) (hl : i.litLenSymbol = none) (hd : i.distSymbol = none)
    (h : i.wellFormed = true → ∀ rest, clElement s (i.extraBits ++ rest) = some (i, rest)) : Statement i := by
  intro hw rest
  refine ⟨fun s' hs => ?_, fun s' hs => ?_, fun s' hs => ?_⟩
  · rw [hc] at hs; cases hs; exact h hw rest
  · rw [hl] at hs; cases hs
  · rw [hd] at hs; cases hs

/-- An element of the literal/length alphabet alone. -/
theorem of_litLen {i : Instr} {s : Nat} (hc : i.clSymbol = none) (hl : i.litLenSymbol = some s)
    (hd : i.distSymbol = none) (h : ∀ rest, litLenElement s (i.extraBits ++ rest) = some (i, rest)) :
    Statement i := by
  intro hw rest
  refine ⟨fun s' hs => ?_, fun s' hs => ?_, fun s' hs => ?_⟩
  · rw [hc] at hs; cases hs
  · rw [hl] at hs; cases hs; exact h rest
  · rw [hd] at hs; cases hs

/-- An element of the distance alphabet alone. -/
theorem of_dist {i : Instr} {s : Nat} (hc : i.clSymbol = none) (hl : i.litLenSymbol = none)
    (hd : i.distSymbol = some s) (h : ∀ rest, distElement s (i.extraBits ++ rest) = some (i, rest)) :
    Statement i := by
  intro hw rest
  refine ⟨fun s' hs => ?_, fun s' hs => ?_, fun s' hs => ?_⟩
  · rw [hc] at hs; cases hs
  · rw [hl] at hs; cases hs
  · rw [hd] at hs; cases hs; exact h rest

/-- An element without a symbol. -/
theorem of_none {i : Instr} (hc : i.clSymbol = none) (hl : i.litLenSymbol = none) (hd : i.distSymbol = none) :
    Statement i := by
  intro hw rest
  refine ⟨fun s' hs => ?_, fun s' hs => ?_, fun s' hs => ?_⟩
  · rw [hc] at hs; cases hs
  · rw [hl] at hs; cases hs
  · rw [hd] at hs; cases hs

theorem hdrStored (f : Bool) : Statement (.hdrStored f) :=
  of_none rfl rfl rfl

theorem hdrFixed (f : Bool) : Statement (.hdrFixed f) :=
  of_none rfl rfl rfl

theorem hdrDynamic (f : Bool) : Statement (.hdrDynamic f) :=
  of_none rfl rfl rfl

theorem hdrReserved (f : Bool) : Statement (.hdrReserved f) :=
  of_none rfl rfl rfl

theorem storedAlign : Statement (.storedAlign) :=
  of_none rfl rfl rfl

theorem storedLen (len : BitVec 16) : Statement (.storedLen len) :=
  of_none rfl rfl rfl

theorem storedNlen (nlen : BitVec 16) : Statement (.storedNlen nlen) :=
  of_none rfl rfl rfl

theorem storedByte (b : Byte) : Statement (.storedByte b) :=
  of_none rfl rfl rfl

theorem dynHdr (hlit : BitVec 5) (hdist : BitVec 5) (hclen : BitVec 4) : Statement (.dynHdr hlit hdist hclen) :=
  of_none rfl rfl rfl

theorem dynCllen (v : BitVec 3) : Statement (.dynCllen v) :=
  of_none rfl rfl rfl

theorem clLen (n : BitVec 4) : Statement (.clLen n) :=
  of_cl rfl rfl rfl fun _ rest => by
    have h := clElement_of_lt n.isLt rest
    simpa [Instr.extraBits] using h

theorem clRep16 (r : Nat) : Statement (.clRep16 r) :=
  of_cl rfl rfl rfl fun hw rest => by
    simp only [Instr.wellFormed, Bool.and_eq_true, decide_eq_true_eq] at hw
    exact withRepeat_append _ hw.1 (by omega) rest

theorem clZero17 (r : Nat) : Statement (.clZero17 r) :=
  of_cl rfl rfl rfl fun hw rest => by
    simp only [Instr.wellFormed, Bool.and_eq_true, decide_eq_true_eq] at hw
    exact withRepeat_append _ hw.1 (by omega) rest

theorem clZero18 (r : Nat) : Statement (.clZero18 r) :=
  of_cl rfl rfl rfl fun hw rest => by
    simp only [Instr.wellFormed, Bool.and_eq_true, decide_eq_true_eq] at hw
    exact withRepeat_append _ hw.1 (by omega) rest

theorem lit (b : Byte) : Statement (.lit b) :=
  of_litLen rfl rfl rfl fun rest => by
    have h := litLenElement_of_lt b.isLt rest
    simpa [Instr.extraBits] using h

theorem eob : Statement (.eob) :=
  of_litLen rfl rfl rfl fun _ => rfl

theorem len257 : Statement (.len257) :=
  of_litLen rfl rfl rfl fun _ => rfl

theorem len258 : Statement (.len258) :=
  of_litLen rfl rfl rfl fun _ => rfl

theorem len259 : Statement (.len259) :=
  of_litLen rfl rfl rfl fun _ => rfl

theorem len260 : Statement (.len260) :=
  of_litLen rfl rfl rfl fun _ => rfl

theorem len261 : Statement (.len261) :=
  of_litLen rfl rfl rfl fun _ => rfl

theorem len262 : Statement (.len262) :=
  of_litLen rfl rfl rfl fun _ => rfl

theorem len263 : Statement (.len263) :=
  of_litLen rfl rfl rfl fun _ => rfl

theorem len264 : Statement (.len264) :=
  of_litLen rfl rfl rfl fun _ => rfl

theorem len265 (x : BitVec 1) : Statement (.len265 x) :=
  of_litLen rfl rfl rfl fun rest => withField_append _ x rest

theorem len266 (x : BitVec 1) : Statement (.len266 x) :=
  of_litLen rfl rfl rfl fun rest => withField_append _ x rest

theorem len267 (x : BitVec 1) : Statement (.len267 x) :=
  of_litLen rfl rfl rfl fun rest => withField_append _ x rest

theorem len268 (x : BitVec 1) : Statement (.len268 x) :=
  of_litLen rfl rfl rfl fun rest => withField_append _ x rest

theorem len269 (x : BitVec 2) : Statement (.len269 x) :=
  of_litLen rfl rfl rfl fun rest => withField_append _ x rest

theorem len270 (x : BitVec 2) : Statement (.len270 x) :=
  of_litLen rfl rfl rfl fun rest => withField_append _ x rest

theorem len271 (x : BitVec 2) : Statement (.len271 x) :=
  of_litLen rfl rfl rfl fun rest => withField_append _ x rest

theorem len272 (x : BitVec 2) : Statement (.len272 x) :=
  of_litLen rfl rfl rfl fun rest => withField_append _ x rest

theorem len273 (x : BitVec 3) : Statement (.len273 x) :=
  of_litLen rfl rfl rfl fun rest => withField_append _ x rest

theorem len274 (x : BitVec 3) : Statement (.len274 x) :=
  of_litLen rfl rfl rfl fun rest => withField_append _ x rest

theorem len275 (x : BitVec 3) : Statement (.len275 x) :=
  of_litLen rfl rfl rfl fun rest => withField_append _ x rest

theorem len276 (x : BitVec 3) : Statement (.len276 x) :=
  of_litLen rfl rfl rfl fun rest => withField_append _ x rest

theorem len277 (x : BitVec 4) : Statement (.len277 x) :=
  of_litLen rfl rfl rfl fun rest => withField_append _ x rest

theorem len278 (x : BitVec 4) : Statement (.len278 x) :=
  of_litLen rfl rfl rfl fun rest => withField_append _ x rest

theorem len279 (x : BitVec 4) : Statement (.len279 x) :=
  of_litLen rfl rfl rfl fun rest => withField_append _ x rest

theorem len280 (x : BitVec 4) : Statement (.len280 x) :=
  of_litLen rfl rfl rfl fun rest => withField_append _ x rest

theorem len281 (x : BitVec 5) : Statement (.len281 x) :=
  of_litLen rfl rfl rfl fun rest => withField_append _ x rest

theorem len282 (x : BitVec 5) : Statement (.len282 x) :=
  of_litLen rfl rfl rfl fun rest => withField_append _ x rest

theorem len283 (x : BitVec 5) : Statement (.len283 x) :=
  of_litLen rfl rfl rfl fun rest => withField_append _ x rest

theorem len284 (x : BitVec 5) : Statement (.len284 x) :=
  of_litLen rfl rfl rfl fun rest => withField_append _ x rest

theorem len285 : Statement (.len285) :=
  of_litLen rfl rfl rfl fun _ => rfl

theorem litlen286 : Statement (.litlen286) :=
  of_litLen rfl rfl rfl fun _ => rfl

theorem litlen287 : Statement (.litlen287) :=
  of_litLen rfl rfl rfl fun _ => rfl

theorem dist0 : Statement (.dist0) :=
  of_dist rfl rfl rfl fun _ => rfl

theorem dist1 : Statement (.dist1) :=
  of_dist rfl rfl rfl fun _ => rfl

theorem dist2 : Statement (.dist2) :=
  of_dist rfl rfl rfl fun _ => rfl

theorem dist3 : Statement (.dist3) :=
  of_dist rfl rfl rfl fun _ => rfl

theorem dist4 (y : BitVec 1) : Statement (.dist4 y) :=
  of_dist rfl rfl rfl fun rest => withField_append _ y rest

theorem dist5 (y : BitVec 1) : Statement (.dist5 y) :=
  of_dist rfl rfl rfl fun rest => withField_append _ y rest

theorem dist6 (y : BitVec 2) : Statement (.dist6 y) :=
  of_dist rfl rfl rfl fun rest => withField_append _ y rest

theorem dist7 (y : BitVec 2) : Statement (.dist7 y) :=
  of_dist rfl rfl rfl fun rest => withField_append _ y rest

theorem dist8 (y : BitVec 3) : Statement (.dist8 y) :=
  of_dist rfl rfl rfl fun rest => withField_append _ y rest

theorem dist9 (y : BitVec 3) : Statement (.dist9 y) :=
  of_dist rfl rfl rfl fun rest => withField_append _ y rest

theorem dist10 (y : BitVec 4) : Statement (.dist10 y) :=
  of_dist rfl rfl rfl fun rest => withField_append _ y rest

theorem dist11 (y : BitVec 4) : Statement (.dist11 y) :=
  of_dist rfl rfl rfl fun rest => withField_append _ y rest

theorem dist12 (y : BitVec 5) : Statement (.dist12 y) :=
  of_dist rfl rfl rfl fun rest => withField_append _ y rest

theorem dist13 (y : BitVec 5) : Statement (.dist13 y) :=
  of_dist rfl rfl rfl fun rest => withField_append _ y rest

theorem dist14 (y : BitVec 6) : Statement (.dist14 y) :=
  of_dist rfl rfl rfl fun rest => withField_append _ y rest

theorem dist15 (y : BitVec 6) : Statement (.dist15 y) :=
  of_dist rfl rfl rfl fun rest => withField_append _ y rest

theorem dist16 (y : BitVec 7) : Statement (.dist16 y) :=
  of_dist rfl rfl rfl fun rest => withField_append _ y rest

theorem dist17 (y : BitVec 7) : Statement (.dist17 y) :=
  of_dist rfl rfl rfl fun rest => withField_append _ y rest

theorem dist18 (y : BitVec 8) : Statement (.dist18 y) :=
  of_dist rfl rfl rfl fun rest => withField_append _ y rest

theorem dist19 (y : BitVec 8) : Statement (.dist19 y) :=
  of_dist rfl rfl rfl fun rest => withField_append _ y rest

theorem dist20 (y : BitVec 9) : Statement (.dist20 y) :=
  of_dist rfl rfl rfl fun rest => withField_append _ y rest

theorem dist21 (y : BitVec 9) : Statement (.dist21 y) :=
  of_dist rfl rfl rfl fun rest => withField_append _ y rest

theorem dist22 (y : BitVec 10) : Statement (.dist22 y) :=
  of_dist rfl rfl rfl fun rest => withField_append _ y rest

theorem dist23 (y : BitVec 10) : Statement (.dist23 y) :=
  of_dist rfl rfl rfl fun rest => withField_append _ y rest

theorem dist24 (y : BitVec 11) : Statement (.dist24 y) :=
  of_dist rfl rfl rfl fun rest => withField_append _ y rest

theorem dist25 (y : BitVec 11) : Statement (.dist25 y) :=
  of_dist rfl rfl rfl fun rest => withField_append _ y rest

theorem dist26 (y : BitVec 12) : Statement (.dist26 y) :=
  of_dist rfl rfl rfl fun rest => withField_append _ y rest

theorem dist27 (y : BitVec 12) : Statement (.dist27 y) :=
  of_dist rfl rfl rfl fun rest => withField_append _ y rest

theorem dist28 (y : BitVec 13) : Statement (.dist28 y) :=
  of_dist rfl rfl rfl fun rest => withField_append _ y rest

theorem dist29 (y : BitVec 13) : Statement (.dist29 y) :=
  of_dist rfl rfl rfl fun rest => withField_append _ y rest

theorem distsym30 : Statement (.distsym30) :=
  of_dist rfl rfl rfl fun _ => rfl

theorem distsym31 : Statement (.distsym31) :=
  of_dist rfl rfl rfl fun _ => rfl

end Laws.FieldRoundTrip

end Sys2Proof
end

