-- ==== Sys2Proof/Tests/Slice0.lean ====
section
/-! SUPPORT. Tests.  Every expected value is the spec's: a row of 95_test_vectors.md, an encoding of 30_encoding.md or a
rule's own example, named in the test's comment.  `witness_<obligation>` shows states and operands that meet all
hypotheses of that obligation together, at the ends of their ranges. -/

set_option maxRecDepth 20000
set_option Elab.async false


namespace Sys2Proof.Tests

open Sys2Proof.Machine

/-! ### Helpers -/

/-- Stream bits written as 0 and 1, the first stream bit first. -/
def bits (l : List Nat) : List Bool := l.map (· == 1)

/-- The bits decode to the element and none is left. -/
def reads (c : Ctx) (l : List Nat) (i : Instr) : Bool :=
  match decode c (bits l) with
  | .ok p => p.1 == i && p.2 == []
  | .error _ => false

/-- `reads` for a list of words. -/
def readsAll (c : Ctx) (t : List (List Nat × Instr)) : Bool := t.all fun p => reads c p.1 p.2

/-- The reset state in FSM state `f`, the bytes at the cursor. -/
def payload (f : Fsm) (bs : List Byte) : State :=
  { State.reset with fsm := f.code, src := Memory.ofBytes 0 bs, srcLen := bs.length }

/-- What `g` shows of the state an outcome leads to; `none` at a stop. -/
def shows {α : Type} (o : Host.Outcome State Fault Refusal) (g : State → α) : Option α :=
  match o with
  | .next t => some (g t)
  | .fault _ => none
  | .refused _ => none

/-- What `g` shows after one step. -/
def after {α : Type} (s : State) (g : State → α) : Option α := shows (step s) g

/-- Where the host stands after START with the payload, as 95_test_vectors.md part 3 says. -/
def started (bs : List Byte) (strict : Bool) : State :=
  { State.reset with
    src := Memory.ofBytes 0 bs
    pins := { State.reset.pins with start := true, strict := strict, srcLen := bs.length } }

/-- A state with the two bytes 41 42 produced. -/
def twoBytes (f : Fsm) (bs : List Byte) : State :=
  { payload f bs with
    out := [0x41, 0x42], win := [(0, 0x41), (1, 0x42)], wpos := 2, histLen := 2, outCount := 2 }

theorem next_of_shows {o : Host.Outcome State Fault Refusal} {g : State → Bool} (h : shows o g = some true) :
    ∃ t, o = .next t ∧ g t = true := by
  cases o with
  | next t => exact ⟨t, rfl, Option.some.inj h⟩
  | fault f => cases h
  | refused r => cases h

theorem legal_default : Config.default.legal := by unfold Config.legal; decide

/-- The invariant from its parts, all but the FSM state's own being closed facts. -/
theorem inv_of {s : State} (f : Fsm) (hf : Fsm.ofCode s.fsm = some f) (hs : s.StateInv f)
    (hr : s.bitCnt.toNat ≤ 23 ∧ s.bitBuf.toNat < 2 ^ s.bitCnt.toNat ∧ s.inPos ≤ s.srcLen ∧
      s.srcLen < 2 ^ s.cfg.srcLenW ∧ s.padCnt.toNat = min s.pads 3 ∧ (s.pads ≠ 0 → s.inPos = s.srcLen) ∧
      s.bitCnt.toNat ≤ 8 * (s.inPos + s.pads) ∧ (s.strict = true → 8 * s.padCnt.toNat ≤ s.bitCnt.toNat) ∧
      (s.busy = true → ∀ k < s.bitCnt.toNat, s.bitBuf.getLsbD k = s.sourceBit (s.cur + k)))
    (hw : Memory.wf s.win = true ∧ Memory.below 32768 s.win = true ∧ s.wpos.toNat = s.out.length % 32768 ∧
      s.histLen.toNat = min s.out.length 32768 ∧ s.outCount = s.out.length % 2 ^ s.cfg.outCountW ∧
      ∀ k < s.histLen.toNat,
        Memory.read s.win ((s.out.length - 1 - k) % 32768) = s.out.getD (s.out.length - 1 - k) 0)
    (hm : Memory.wf s.src = true ∧ s.btype ≠ 3 ∧ (s.errCode ≠ 0 ↔ s.fsm = Fsm.error.code))
    (hc : s.cfg = Config.default := by rfl) : s.Inv :=
  { config := hc ▸ legal_default
    reader := ⟨hr.1, hr.2.1, hr.2.2.1, hr.2.2.2.1, hr.2.2.2.2.1, hr.2.2.2.2.2.1, hr.2.2.2.2.2.2.1, hr.2.2.2.2.2.2.2.1,
      hr.2.2.2.2.2.2.2.2⟩
    window := ⟨hw.1, hw.2.1, hw.2.2.1, hw.2.2.2.1, hw.2.2.2.2.1, hw.2.2.2.2.2⟩
    src_wf := hm.1
    btype_ne := hm.2.1
    error_code := hm.2.2
    state := ⟨f, hf, hs⟩ }

/-! ### Well-formed instructions (30_encoding.md rule R108) -/

/-- The repeat counts just inside and just outside 3..6, 3..10 and 11..138. -/
theorem test_wellFormed_repeat_counts :
    [Instr.clRep16 3, .clRep16 6, .clZero17 3, .clZero17 10, .clZero18 11, .clZero18 138].all Instr.wellFormed = true ∧
      [Instr.clRep16 2, .clRep16 7, .clZero17 2, .clZero17 11, .clZero18 10, .clZero18 139].any Instr.wellFormed =
        false := by decide

/-! ### Words written out from the encodings of 30_encoding.md -/

/-- Format H (R101): BFINAL, then BTYPE least significant bit first. -/
theorem test_decode_headers :
    readsAll .hdr [
      ([1, 0, 0], .hdrStored true),
      ([0, 1, 0], .hdrFixed false),
      ([1, 0, 1], .hdrDynamic true),
      ([0, 1, 1], .hdrReserved false)] = true := by decide +kernel

/-- Format S (R102) as P1 of 95_test_vectors.md writes it: 5 alignment zeros, LEN 0x0002, NLEN 0xFFFD, 'H'. -/
theorem test_decode_stored :
    reads (.storedAlign 5) [0, 0, 0, 0, 0] .storedAlign = true ∧
      reads .storedLen [0, 1, 0, 0, 0, 0, 0, 0, 0, 0, 0, 0, 0, 0, 0, 0] (.storedLen 0x0002) = true ∧
      reads .storedNlen [1, 0, 1, 1, 1, 1, 1, 1, 1, 1, 1, 1, 1, 1, 1, 1] (.storedNlen 0xFFFD) = true ∧
      reads .storedByte [0, 0, 0, 1, 0, 0, 1, 0] (.storedByte 0x48) = true := by decide +kernel

/-- Format D (R104) as P3 writes it: HLIT 1, HDIST 1, HCLEN 14; a code length of 1 (LSB first). -/
theorem test_decode_dynamic_header :
    reads .dynHdr [1, 0, 0, 0, 0, 1, 0, 0, 0, 0, 0, 1, 1, 1] (.dynHdr 1 1 14) = true ∧
      reads .dynCllen [1, 0, 0] (.dynCllen 1) = true := by decide +kernel

/-- The code-length table of HB10: 18 is 0, 1 is 10, 2 is 11. -/
def hb10 : List Nat := [0, 2, 2, 0, 0, 0, 0, 0, 0, 0, 0, 0, 0, 0, 0, 0, 0, 0, 1]

/-- Code-length elements in the table of HB10 (P3: `0 1101010` is CL_ZERO18 97) and in DY1's (16 is 0, 1 is 10, 18 is 11);
17 in the table (17: 0) with 6 - 3 in 3 bits. -/
theorem test_decode_code_lengths :
    readsAll (.clSym hb10) [
      ([1, 0], .clLen 1),
      ([1, 1], .clLen 2),
      ([0, 0, 1, 1, 0, 1, 0, 1], .clZero18 97),
      ([0, 1, 1, 1, 1, 1, 1, 1], .clZero18 138)] = true ∧
      reads (.clSym [0, 2, 0, 0, 0, 0, 0, 0, 0, 0, 0, 0, 0, 0, 0, 0, 1, 0, 2]) [0, 1, 0] (.clRep16 4) = true ∧
      reads (.clSym (soleSymbol 19 17)) [0, 1, 1, 0] (.clZero17 6) = true := by decide +kernel

/-- R113, R115 and HD1 to HD4: literals on both sides of the code-length boundary 144, EOB, 286, 287. -/
theorem test_decode_literals_and_eob :
    readsAll (.litLenSym fixedLitLen) [
      ([0, 1, 1, 1, 0, 0, 0, 1], .lit 0x41),
      ([1, 0, 1, 1, 1, 1, 1, 1], .lit 143),
      ([1, 1, 0, 0, 1, 0, 0, 0, 0], .lit 144),
      ([1, 1, 1, 1, 1, 1, 1, 1, 1], .lit 255),
      ([0, 0, 0, 0, 0, 0, 0], .eob),
      ([1, 1, 0, 0, 0, 1, 1, 0], .litlen286),
      ([1, 1, 0, 0, 0, 1, 1, 1], .litlen287)] = true := by decide +kernel

/-- R340: distance symbols 30 and 31 have no fixed code; here each is the one code of a table (R185). -/
theorem test_decode_dist_30_and_31 :
    reads (.distSym (soleSymbol 32 30)) [0] .distsym30 = true ∧
      reads (.distSym (soleSymbol 32 31)) [0] .distsym31 = true := by decide +kernel

/-- HD5, HD6, HD7: bits that are no code. -/
theorem test_decode_unassigned :
    decode (.distSym fixedDistLen) (bits [1, 1, 1, 1, 0]) = .error .unassignedCode ∧
      decode (.distSym (List.replicate 32 0)) (bits [0, 1, 0, 1]) = .error .unassignedCode ∧
      decode (.litLenSym [1]) (bits [1, 0, 0]) = .error .unassignedCode := by decide +kernel

/-- R280 to R294: the fixed code, most significant bit first, then the extra bits, least significant bit first. -/
theorem test_decode_len_257_to_271 :
    readsAll (.litLenSym fixedLitLen) [
      ([0, 0, 0, 0, 0, 0, 1], .len257),
      ([0, 0, 0, 0, 0, 1, 0], .len258),
      ([0, 0, 0, 0, 0, 1, 1], .len259),
      ([0, 0, 0, 0, 1, 0, 0], .len260),
      ([0, 0, 0, 0, 1, 0, 1], .len261),
      ([0, 0, 0, 0, 1, 1, 0], .len262),
      ([0, 0, 0, 0, 1, 1, 1], .len263),
      ([0, 0, 0, 1, 0, 0, 0], .len264),
      ([0, 0, 0, 1, 0, 0, 1, 1], .len265 1),
      ([0, 0, 0, 1, 0, 1, 0, 1], .len266 1),
      ([0, 0, 0, 1, 0, 1, 1, 1], .len267 1),
      ([0, 0, 0, 1, 1, 0, 0, 1], .len268 1),
      ([0, 0, 0, 1, 1, 0, 1, 0, 1], .len269 2),
      ([0, 0, 0, 1, 1, 1, 0, 0, 1], .len270 2),
      ([0, 0, 0, 1, 1, 1, 1, 0, 1], .len271 2)] = true := by decide +kernel

/-- R295 to R308. -/
theorem test_decode_len_272_to_285 :
    readsAll (.litLenSym fixedLitLen) [
      ([0, 0, 1, 0, 0, 0, 0, 0, 1], .len272 2),
      ([0, 0, 1, 0, 0, 0, 1, 0, 1, 1], .len273 6),
      ([0, 0, 1, 0, 0, 1, 0, 0, 1, 1], .len274 6),
      ([0, 0, 1, 0, 0, 1, 1, 0, 1, 1], .len275 6),
      ([0, 0, 1, 0, 1, 0, 0, 0, 1, 1], .len276 6),
      ([0, 0, 1, 0, 1, 0, 1, 1, 0, 1, 1], .len277 13),
      ([0, 0, 1, 0, 1, 1, 0, 1, 0, 1, 1], .len278 13),
      ([0, 0, 1, 0, 1, 1, 1, 1, 0, 1, 1], .len279 13),
      ([1, 1, 0, 0, 0, 0, 0, 0, 1, 0, 1, 1], .len280 13),
      ([1, 1, 0, 0, 0, 0, 0, 1, 0, 1, 1, 0, 1], .len281 22),
      ([1, 1, 0, 0, 0, 0, 1, 0, 0, 1, 1, 0, 1], .len282 22),
      ([1, 1, 0, 0, 0, 0, 1, 1, 0, 1, 1, 0, 1], .len283 22),
      ([1, 1, 0, 0, 0, 1, 0, 0, 0, 1, 1, 0, 1], .len284 22),
      ([1, 1, 0, 0, 0, 1, 0, 1], .len285)] = true := by decide +kernel

/-- R310 to R324. -/
theorem test_decode_dist_0_to_14 :
    readsAll (.distSym fixedDistLen) [
      ([0, 0, 0, 0, 0], .dist0),
      ([0, 0, 0, 0, 1], .dist1),
      ([0, 0, 0, 1, 0], .dist2),
      ([0, 0, 0, 1, 1], .dist3),
      ([0, 0, 1, 0, 0, 1], .dist4 1),
      ([0, 0, 1, 0, 1, 1], .dist5 1),
      ([0, 0, 1, 1, 0, 0, 1], .dist6 2),
      ([0, 0, 1, 1, 1, 0, 1], .dist7 2),
      ([0, 1, 0, 0, 0, 0, 1, 1], .dist8 6),
      ([0, 1, 0, 0, 1, 0, 1, 1], .dist9 6),
      ([0, 1, 0, 1, 0, 1, 0, 1, 1], .dist10 13),
      ([0, 1, 0, 1, 1, 1, 0, 1, 1], .dist11 13),
      ([0, 1, 1, 0, 0, 0, 1, 1, 0, 1], .dist12 22),
      ([0, 1, 1, 0, 1, 0, 1, 1, 0, 1], .dist13 22),
      ([0, 1, 1, 1, 0, 1, 0, 0, 1, 0, 1], .dist14 41)] = true := by decide +kernel

/-- R325 to R339. -/
theorem test_decode_dist_15_to_29 :
    readsAll (.distSym fixedDistLen) [
      ([0, 1, 1, 1, 1, 1, 0, 0, 1, 0, 1], .dist15 41),
      ([1, 0, 0, 0, 0, 1, 0, 0, 1, 1, 0, 1], .dist16 89),
      ([1, 0, 0, 0, 1, 1, 0, 0, 1, 1, 0, 1], .dist17 89),
      ([1, 0, 0, 1, 0, 1, 0, 0, 0, 1, 1, 0, 1], .dist18 177),
      ([1, 0, 0, 1, 1, 1, 0, 0, 0, 1, 1, 0, 1], .dist19 177),
      ([1, 0, 1, 0, 0, 1, 1, 0, 0, 0, 1, 1, 0, 1], .dist20 355),
      ([1, 0, 1, 0, 1, 1, 1, 0, 0, 0, 1, 1, 0, 1], .dist21 355),
      ([1, 0, 1, 1, 0, 1, 0, 1, 0, 0, 0, 1, 1, 0, 1], .dist22 709),
      ([1, 0, 1, 1, 1, 1, 0, 1, 0, 0, 0, 1, 1, 0, 1], .dist23 709),
      ([1, 1, 0, 0, 0, 1, 1, 0, 1, 0, 0, 0, 1, 1, 0, 1], .dist24 1419),
      ([1, 1, 0, 0, 1, 1, 1, 0, 1, 0, 0, 0, 1, 1, 0, 1], .dist25 1419),
      ([1, 1, 0, 1, 0, 1, 1, 1, 0, 1, 0, 0, 0, 1, 1, 0, 1], .dist26 2839),
      ([1, 1, 0, 1, 1, 1, 1, 1, 0, 1, 0, 0, 0, 1, 1, 0, 1], .dist27 2839),
      ([1, 1, 1, 0, 0, 1, 0, 1, 1, 0, 1, 0, 0, 0, 1, 1, 0, 1], .dist28 5677),
      ([1, 1, 1, 0, 1, 1, 0, 1, 1, 0, 1, 0, 0, 0, 1, 1, 0, 1], .dist29 5677)] = true := by decide +kernel

/-- R280 to R308: in LEN_EXTRA with every extra bit 1, `MLEN` is the end of the symbol's range. -/
theorem test_len_extra_range_ends :
    (List.range 29).map (fun k =>
        after { payload .lenExtra [0xFF, 0xFF] with lsym := BitVec.ofNat 9 (257 + k) } fun t => t.mlen.toNat) =
      [some 3, some 4, some 5, some 6, some 7, some 8, some 9, some 10, some 12, some 14,
        some 16, some 18, some 22, some 26, some 30, some 34, some 42, some 50, some 58, some 66,
        some 82, some 98, some 114, some 130, some 162, some 194, some 226, some 258, some 258] := by
  decide +kernel

/-- R310 to R339: in DIST_EXTRA with every extra bit 1, `MDIST` is the end of the symbol's range. -/
theorem test_dist_extra_range_ends :
    (List.range 30).map (fun k =>
        after { payload .distExtra [0xFF, 0xFF] with dsym := BitVec.ofNat 5 k, mlen := 3, histLen := 32768 }
          fun t => t.mdist.toNat) =
      [some 1, some 2, some 3, some 4, some 6, some 8, some 12, some 16, some 24, some 32,
        some 48, some 64, some 96, some 128, some 192, some 256, some 384, some 512, some 768, some 1024,
        some 1536, some 2048, some 3072, some 4096, some 6144, some 8192, some 12288, some 16384, some 24576, some 32768] := by
  decide +kernel

/-! ### Single steps -/

/-- P1, first step after START; SC1: an empty payload ends at once with STATUS 0x00000442. -/
theorem test_start :
    after (started [0x01, 0x02, 0x00, 0xFD, 0xFF, 0x48, 0x69] true) (fun t => (t.fsm, t.strict, t.srcLen, t.inPos)) =
        some (Fsm.hdr.code, true, 7, 0) ∧
      after (started [] false) (fun t => (t.status, t.out)) = some (0x442, []) := by decide +kernel

/-- P1, P2, P3: HDR writes `BFINAL`, `BTYPE` and the state the block starts in. -/
theorem test_hdr_block_types :
    after (payload .hdr [0x01, 0x02]) (fun t => (t.bfinal, t.btype, t.fsm, t.inPos, t.bitCnt)) =
        some (true, 0, Fsm.storedAlign.code, 1, 5) ∧
      after (payload .hdr [0x02]) (fun t => (t.bfinal, t.btype, t.fsm)) = some (false, 1, Fsm.fixedSetup.code) ∧
      after (payload .hdr [0x0D]) (fun t => (t.bfinal, t.btype, t.fsm)) = some (true, 2, Fsm.dynHdr.code) := by
  decide +kernel

/-- BD1: BTYPE 3; the step's staging is discarded and STATUS is 0x0000049C. -/
theorem test_hdr_reserved :
    after (payload .hdr [0x07]) (fun t => (t.status, t.inPos, t.bitCnt, t.bfinal)) = some (0x49C, 0, 0, false) := by
  decide +kernel

/-- P1: five bits are dropped to the byte boundary. -/
theorem test_stored_align :
    after { payload .storedAlign [0x01, 0x02] with inPos := 1, bitCnt := 5 } (fun t => (t.bitCnt, t.inPos, t.fsm)) =
      some (0, 1, Fsm.storedLen.code) := by decide +kernel

/-- P1: LEN 0x0002. -/
theorem test_stored_len :
    after (payload .storedLen [0x02, 0x00, 0xFD]) (fun t => (t.storedLen, t.inPos, t.fsm)) =
      some (2, 2, Fsm.storedNlen.code) := by decide +kernel

/-- P1: NLEN 0xFFFD; BD4: NLEN 0xFFFC is InvalidStoredBlockChecksum. -/
theorem test_stored_nlen :
    after { payload .storedNlen [0xFD, 0xFF] with storedLen := 2 } (fun t => (t.rem, t.fsm)) =
        some (2, Fsm.storedCopy.code) ∧
      after { payload .storedNlen [0xFC, 0xFF] with storedLen := 2 } (fun t => (t.errCode, t.rem)) = some (4, 0) := by
  decide +kernel

/-- BD2: LEN 0 of a final block is the end. -/
theorem test_stored_nlen_empty_block :
    after { payload .storedNlen [0xFF, 0xFF] with bfinal := true } (fun t => t.fsm) = some Fsm.done.code := by
  decide +kernel

/-- P1: the last byte ends the final block; SC3: without `out_ready` the step holds. -/
theorem test_stored_byte :
    after { payload .storedCopy [0x69] with rem := 1, bfinal := true } (fun t => (t.out, t.rem, t.fsm, t.wpos)) =
        some ([0x69], 0, Fsm.done.code, 1) ∧
      after { payload .storedCopy [0x69] with rem := 1, pins := { State.reset.pins with outReady := false } }
        (fun t => (t.out, t.rem, t.inPos, t.bitCnt, t.fsm)) = some ([], 1, 0, 0, Fsm.storedCopy.code) := by decide +kernel

/-- BD5 and BD6: past the end of the payload a raw byte is 0 in lenient mode and TruncatedInput in strict mode. -/
theorem test_stored_byte_past_the_end :
    after { payload .storedCopy [] with rem := 3 } (fun t => (t.out, t.padCnt)) = some ([0], 1) ∧
      after { payload .storedCopy [] with rem := 3, strict := true } (fun t => (t.out, t.errCode)) = some ([], 1) := by
  decide +kernel

/-- R229. -/
theorem test_fixed_setup :
    after (payload .fixedSetup []) (fun t => (t.tblSel, t.fsm)) = some (true, Fsm.sym.code) := by decide +kernel

/-- P3: HLIT 1, HDIST 1, HCLEN 14 after the three header bits; P8b: HLIT 30 is UnsupportedSymbol. -/
theorem test_dyn_hdr :
    after { payload .dynHdr [0x0D, 0xC1, 0x81] with inPos := 1, bitBuf := 1, bitCnt := 5 }
        (fun t => (t.nlit, t.ndist, t.nclen, t.idx, t.fsm)) = some (258, 2, 18, 0, Fsm.dynCllen.code) ∧
      after { payload .dynHdr [0xF5, 0xDD, 0x81] with inPos := 1, bitBuf := 0x1E, bitCnt := 5 }
        (fun t => (t.status, t.inPos, t.bitCnt)) = some (0x4B4, 1, 5) := by decide +kernel

/-- R233: the third length goes to symbol PERM[2] = 18, the last of 18 ends at symbol 1. -/
theorem test_dyn_cllen :
    after { payload .dynCllen [0x01] with nclen := 18, idx := 2 } (fun t => (t.clLen[18], t.idx, t.fsm)) =
        some (1, 3, Fsm.dynCllen.code) ∧
      after { payload .dynCllen [0x02] with nclen := 18, idx := 17 } (fun t => (t.clLen[1], t.idx, t.fsm)) =
        some (2, 18, Fsm.dynClbuild.code) := by decide +kernel

/-- The table of HB10 in `CL_LEN`. -/
def clHb10 : Vector (BitVec 3) 19 := (((Vector.replicate 19 0).set 18 1).set 1 2).set 2 2

/-- P3's code lengths build; DY3's (18, 1 and 2 of length 1) are over-subscribed. -/
theorem test_dyn_clbuild :
    after { payload .dynClbuild [] with clLen := clHb10, idx := 18 } (fun t => (t.idx, t.fsm)) =
        some (0, Fsm.dynLens.code) ∧
      after { payload .dynClbuild [] with clLen := (clHb10.set 1 1).set 2 1 } (fun t => t.errCode) = some 2 := by
  decide +kernel

/-- P3: CL_LEN 2 at `LENS[97]`; the last length of P3 at `LENS[259]`. -/
theorem test_cl_len :
    after { payload .dynLens [0x03] with clLen := clHb10, nlit := 258, ndist := 2, idx := 97 }
        (fun t => (t.lensAt 97, t.idx, t.bitCnt, t.fsm)) = some (2, 98, 6, Fsm.dynLens.code) ∧
      after { payload .dynLens [0x01] with clLen := clHb10, nlit := 258, ndist := 2, idx := 259 }
        (fun t => (t.lensAt 259, t.idx, t.fsm)) = some (1, 260, Fsm.dynBuild.code) := by decide +kernel

/-- DY8: CL_REP16 3 copies `LENS[257]`; DY1: the first element of all is UnsupportedSymbol. -/
theorem test_cl_rep16 :
    after { payload .dynLens [0x00] with
          clLen := soleVector 19 3 16, nlit := 258, ndist := 3, idx := 258, lens := (Vector.replicate 316 0).set 257 2 }
        (fun t => (t.lensAt 258, t.lensAt 259, t.lensAt 260, t.idx, t.fsm)) = some (2, 2, 2, 261, Fsm.dynBuild.code) ∧
      after { payload .dynLens [0x00] with clLen := soleVector 19 3 16, nlit := 257, ndist := 1 }
        (fun t => (t.errCode, t.bitCnt)) = some (6, 0) := by decide +kernel

/-- R238: 3 + 7 zero lengths. -/
theorem test_cl_zero17 :
    after { payload .dynLens [0x0E] with
          clLen := soleVector 19 3 17, nlit := 257, ndist := 1, idx := 5, lens := Vector.replicate 316 9 }
        (fun t => (t.lensAt 4, t.lensAt 5, t.lensAt 14, t.lensAt 15, t.idx)) = some (9, 0, 0, 9, 15) := by
  decide +kernel

/-- P3: CL_ZERO18 97; DY2: 257 + 11 > 258. -/
theorem test_cl_zero18 :
    after { payload .dynLens [0xAC] with clLen := clHb10, nlit := 258, ndist := 2, lens := Vector.replicate 316 9 }
        (fun t => (t.lensAt 96, t.lensAt 97, t.idx, t.bitCnt)) = some (0, 9, 97, 0) ∧
      after { payload .dynLens [0x00] with clLen := clHb10, nlit := 257, ndist := 1, idx := 257 } (fun t => t.errCode) =
        some 6 := by decide +kernel

/-- DY6: literal 65 and EOB of length 1 and one distance code are accepted in both settings; DY4: three codes of length 1. -/
theorem test_dyn_build :
    after { payload .dynBuild [] with
          cfg := { Config.default with rejectIncomplete := true }, nlit := 257, ndist := 1, tblSel := true
          lens := (((Vector.replicate 316 0).set 65 1).set 256 1).set 257 1 }
        (fun t => (t.litLen[65], t.litLen[256], t.distLen[0], t.tblSel, t.fsm)) =
          some (1, 1, 1, false, Fsm.sym.code) ∧
      after { payload .dynBuild [] with
          nlit := 257, ndist := 1
          lens := ((((Vector.replicate 316 0).set 0 1).set 1 1).set 2 1).set 257 1 }
        (fun t => (t.errCode, t.litLen[0])) = some (2, 0) := by decide +kernel

/-- DY5: an incomplete code that is not degenerate is accepted by default and IncompleteHuffmanCode with
`REJECT_INCOMPLETE`. -/
theorem test_dyn_build_incomplete :
    [false, true].map (fun r =>
        after { payload .dynBuild [] with
            cfg := { Config.default with rejectIncomplete := r }, nlit := 257, ndist := 1
            lens := (((Vector.replicate 316 0).set 65 2).set 256 2).set 257 1 }
          fun t => (t.fsm, t.errCode)) = [some (Fsm.sym.code, 0), some (Fsm.error.code, 7)] := by decide +kernel

/-- P2: LIT 0x41 with the fixed table, code `01110001`. -/
theorem test_lit :
    after { payload .sym [0x8E] with tblSel := true } (fun t => (t.out, t.wpos, t.histLen, t.outCount, t.fsm)) =
        some ([0x41], 1, 1, 1, Fsm.sym.code) ∧
      after { payload .sym [0x8E] with tblSel := true } (fun t => (Memory.read t.win 0, t.bitCnt, t.padCnt)) =
        some (0x41, 8, 1) := by decide +kernel

/-- P2: EOB of a final block, with the data's pad byte staged and not consumed (SC7); BD9: of a block before the last. -/
theorem test_eob :
    after { payload .sym [0x00] with tblSel := true, bfinal := true, strict := true } (fun t => (t.fsm, t.padCnt)) =
        some (Fsm.done.code, 1) ∧
      after { payload .sym [0x00] with tblSel := true } (fun t => t.fsm) = some Fsm.hdr.code := by decide +kernel

/-- SC9: EOB needs a bit of a pad byte in strict mode. -/
theorem test_eob_truncated :
    after { payload .sym [] with tblSel := true, bfinal := true, strict := true } (fun t => t.errCode) = some 1 := by
  decide +kernel

/-- SY10, SY11 and SY12: symbols 286 and 287, and the distance code 11110; HD6: a table without codes. -/
theorem test_meaningless_symbols :
    [after { payload .sym [0x63] with tblSel := true } (fun t => (t.errCode, t.inPos)),
      after { payload .sym [0xE3] with tblSel := true } (fun t => (t.errCode, t.inPos)),
      after { payload .distSym [0x0F] with tblSel := true } (fun t => (t.errCode, t.inPos)),
      after { payload .distSym [0x00] with distLen := soleVector 32 4 30 } (fun t => (t.errCode, t.inPos)),
      after { payload .distSym [0x00] with distLen := soleVector 32 4 31 } (fun t => (t.errCode, t.inPos)),
      after (payload .distSym [0x00]) (fun t => (t.errCode, t.inPos))] = List.replicate 6 (some (6, 0)) := by
  decide +kernel

/-- P2: LEN_263 and DIST_0 in their first steps. -/
theorem test_symbols_first_step :
    after { payload .sym [0x70] with tblSel := true } (fun t => (t.lsym, t.bitCnt, t.fsm)) =
        some (263, 9, Fsm.lenExtra.code) ∧
      after { payload .distSym [0x00] with tblSel := true } (fun t => (t.dsym, t.bitCnt, t.fsm)) =
        some (0, 11, Fsm.distExtra.code) := by decide +kernel

/-- SY3 to SY5 and SY8: extra bits are least significant bit first. -/
theorem test_extra_bits_order :
    after { payload .lenExtra [0x01] with lsym := 265 } (fun t => (t.mlen, t.fsm)) = some (12, Fsm.distSym.code) ∧
      after { payload .lenExtra [0x1E] with lsym := 284 } (fun t => t.mlen) = some 257 ∧
      after { payload .distExtra [0x01] with dsym := 4, histLen := 6, mlen := 3 } (fun t => (t.mdist, t.rem, t.fsm)) =
        some (6, 3, Fsm.copy.code) := by decide +kernel

/-- P5 and WN3: a distance beyond the history; `MDIST` and `REM` keep their values. -/
theorem test_dist_beyond_history :
    after { twoBytes .distExtra [] with dsym := 2, mlen := 3 } (fun t => (t.status, t.mdist, t.rem, t.out)) =
      some (0x4AC, 0, 0, [0x41, 0x42]) := by decide +kernel

/-- P4: the first byte of MATCH 3, 2 is the byte two back; WN1, WN2: the window's end. -/
theorem test_copy_and_window :
    after { twoBytes .copy [] with mdist := 2, rem := 3 } (fun t => (t.out, t.rem, t.fsm)) =
        some ([0x41, 0x42, 0x41], 2, Fsm.copy.code) ∧
      (let s := { State.reset with wpos := 32767, histLen := 32767 }.winPut 0x41
      Memory.read s.win 32767 = 0x41 ∧ s.wpos = 0 ∧ s.histLen = 32768) ∧
      { State.reset with wpos := 2 }.winAddr 5 = 32765 := by decide +kernel

/-- HB6, HB7, HB8, HB9: the statuses of the builder and the degenerate codes. -/
theorem test_build_status :
    buildStatus [1] 15 = .incomplete ∧ degenerate [1] = true ∧ buildStatus [2] 15 = .incomplete ∧
      degenerate [2] = false ∧ buildStatus fixedLitLen 15 = .ok ∧ buildStatus fixedDistLen 15 = .incomplete ∧
      buildStatus hb10 7 = .ok ∧ buildStatus [0, 0] 15 = .empty ∧ buildStatus [1, 1, 1] 15 = .overSubscribed := by
  decide +kernel

/-- SC2: START during STORED_ALIGN changes nothing; SC4: START from ERROR clears `ERR_CODE`; reset wins over START (R32). -/
theorem test_start_and_reset :
    after { payload .storedAlign [0x01] with pins := { State.reset.pins with start := true, strict := true, srcLen := 9 } }
        (fun t => (t.strict, t.srcLen, t.fsm)) = some (false, 1, Fsm.storedLen.code) ∧
      after { started [0x01] true with fsm := Fsm.error.code, errCode := 3 } (fun t => (t.errCode, t.fsm)) =
        some (0, Fsm.hdr.code) ∧
      after { started [0x01] true with pins := { State.reset.pins with rst := true, start := true }, errCode := 3 }
        (fun t => (t.errCode, t.fsm, t.status)) = some (0, Fsm.idle.code, 0) := by decide +kernel

/-- R493: START leaves no register of the call before; the arrays keep what they hold. -/
theorem test_start_clears_call_registers :
    after { started [0x01] true with
          fsm := Fsm.done.code, nlit := 258, ndist := 2, nclen := 18, idx := 260, storedLen := 2, rem := 1, lsym := 257
          dsym := 1, mlen := 3, mdist := 2, litLen := soleVector 288 4 65 }
        (fun t => ([t.nlit, t.idx, t.lsym, t.mlen], t.ndist, [t.nclen, t.dsym], [t.storedLen, t.rem, t.mdist])) =
      some ([0, 0, 0, 0], 0, [0, 0], [0, 0, 0]) ∧
      after { started [0x01] true with litLen := soleVector 288 4 65 } (fun t => t.litLen[65]) = some 1 := by
  decide +kernel

/-- R12: any legal lookup widths give the same step. -/
theorem test_lookup_widths_unobservable :
    after { payload .sym [0x8E] with tblSel := true, cfg := { Config.default with lbits := 9, dbits := 6, clbits := 1 } }
      (fun t => (t.out, t.bitCnt)) = some ([0x41], 8) := by decide +kernel

/-- R86: the host's load is taken at rest and refused during a call; a schedule of levels runs P6 to DONE. -/
theorem test_host :
    shows (State.reset.hostMove (.load [0, 7])) (fun t => t.src) = some [(1, 7)] ∧
      shows ((payload .sym []).hostMove (.load [7])) (fun t => t.src) = none ∧
      shows (runCycles [[.load [], .drive { State.reset.pins with start := true }], [.drive State.reset.pins]] State.reset)
        (fun t => t.status) = some 0x442 := by decide +kernel

/-- SC3: while the core holds, the port shows the byte. -/
theorem test_out_port :
    { payload .storedCopy [0x48] with rem := 2, pins := { State.reset.pins with outReady := false } }.outPort =
        some 0x48 ∧ (payload .hdr [0x01]).outPort = none := by decide +kernel

/-- A word of the opcode table at the cursor of the reset state: LIT 'A' is produced, LEN = 0 is read. -/
theorem test_fetch_word :
    (State.reset.withFetchWord 16 0x0041).fsm = Fsm.sym.code ∧
      after (State.reset.withFetchWord 16 0x0041) (fun t => t.out) = some [0x41] ∧
      decodeTableWord 16 0x0041 = some (.lit 0x41) ∧ decodeTableWord 16 0x011C = some (.len284 0) := by decide +kernel

/-! ### Witnesses: states and operands that meet the hypotheses of the obligations -/

theorem witness_HdrStepFollowsRule :
    (payload .hdr [0x07]).pins.rst = false ∧ (payload .hdr [0x07]).fsm = Fsm.hdr.code := by decide +kernel

theorem inv_storedAlign (k : Nat) (hk : k = 5 ∨ k = 8) :
    State.Inv { payload .storedAlign [0x00, 0x02] with inPos := 1, bitCnt := BitVec.ofNat 5 k } := by
  rcases hk with rfl | rfl <;>
    exact inv_of .storedAlign (by decide +kernel) trivial (by decide +kernel) (by decide +kernel) (by decide +kernel)

/-- Five bits before the boundary, and on it. -/
theorem witness_StoredAlignStepDropsToByteBoundary :
    ∀ k, k = 5 ∨ k = 8 →
      let s : State := { payload .storedAlign [0x00, 0x02] with inPos := 1, bitCnt := BitVec.ofNat 5 k }
      s.Inv ∧ s.pins.rst = false ∧ s.fsm = Fsm.storedAlign.code :=
  fun k hk => ⟨inv_storedAlign k hk, rfl, rfl⟩

theorem witness_StoredLenStepFollowsRule :
    (payload .storedLen [0x02]).pins.rst = false ∧ (payload .storedLen [0x02]).fsm = Fsm.storedLen.code := by
  decide +kernel

theorem witness_StoredNlenStepFollowsRule :
    (payload .storedNlen [0xFD, 0xFF]).pins.rst = false ∧
      (payload .storedNlen [0xFD, 0xFF]).fsm = Fsm.storedNlen.code := by decide +kernel

theorem witness_StoredCopyStepFollowsRule :
    ∀ r ∈ [1, 65535],
      let s : State := { payload .storedCopy [0x48] with rem := BitVec.ofNat 16 r }
      s.pins.rst = false ∧ s.fsm = Fsm.storedCopy.code ∧ s.rem ≠ 0 := by decide +kernel

theorem witness_SetupStepsReadNoBits :
    ∀ f ∈ [Fsm.fixedSetup, .dynClbuild], (payload f []).pins.rst = false ∧ (payload f []).fsm = f.code := by
  decide +kernel

theorem witness_DynHdrStepFollowsRule :
    (payload .dynHdr [0x0D]).pins.rst = false ∧ (payload .dynHdr [0x0D]).fsm = Fsm.dynHdr.code := by decide +kernel

/-- The first of 4 lengths and the last of 19. -/
theorem witness_DynCllenStepFollowsRule :
    ∀ p ∈ [(0, 4), (18, 19)],
      let s : State := { payload .dynCllen [0x01] with idx := BitVec.ofNat 9 p.1, nclen := BitVec.ofNat 5 p.2 }
      s.pins.rst = false ∧ s.fsm = Fsm.dynCllen.code ∧ s.idx.toNat < s.nclen.toNat ∧ s.nclen.toNat ≤ 19 := by
  decide +kernel

/-- The first of 258 lengths and the last of 316. -/
theorem witness_DynLensStepFollowsRule :
    ∀ p ∈ [(0, 257, 1), (315, 286, 30)],
      let s : State := { payload .dynLens [0x01] with
        idx := BitVec.ofNat 9 p.1, nlit := BitVec.ofNat 9 p.2.1, ndist := BitVec.ofNat 6 p.2.2 }
      s.pins.rst = false ∧ s.fsm = Fsm.dynLens.code ∧ s.idx.toNat < s.lensTotal ∧ s.lensTotal ≤ 316 := by
  decide +kernel

theorem witness_DynBuildStepFollowsRule :
    ∀ p ∈ [(257, 1), (286, 30)],
      let s : State := { payload .dynBuild [] with nlit := BitVec.ofNat 9 p.1, ndist := BitVec.ofNat 6 p.2 }
      s.pins.rst = false ∧ s.fsm = Fsm.dynBuild.code ∧ s.countsLegal := by
  unfold State.countsLegal; decide +kernel

theorem witness_SymStepFollowsRule :
    (payload .sym [0x8E]).pins.rst = false ∧ (payload .sym [0x8E]).fsm = Fsm.sym.code := by decide +kernel

theorem witness_LenExtraStepFollowsRule :
    ∀ v ∈ [257, 285],
      let s : State := { payload .lenExtra [0x01] with lsym := BitVec.ofNat 9 v }
      s.pins.rst = false ∧ s.fsm = Fsm.lenExtra.code ∧ 257 ≤ s.lsym.toNat ∧ s.lsym.toNat ≤ 285 := by decide +kernel

theorem witness_DistSymStepFollowsRule :
    (payload .distSym [0x00]).pins.rst = false ∧ (payload .distSym [0x00]).fsm = Fsm.distSym.code := by decide +kernel

theorem witness_DistExtraStepFollowsRule :
    ∀ v ∈ [0, 29],
      let s : State := { payload .distExtra [0x01] with dsym := BitVec.ofNat 5 v }
      s.pins.rst = false ∧ s.fsm = Fsm.distExtra.code ∧ s.dsym.toNat ≤ 29 := by decide +kernel

theorem witness_CopyStepFollowsRule :
    ∀ p ∈ [(1, 1), (258, 32768)],
      let s : State := { payload .copy [] with rem := BitVec.ofNat 16 p.1, mdist := BitVec.ofNat 16 p.2 }
      s.pins.rst = false ∧ s.fsm = Fsm.copy.code ∧ s.rem ≠ 0 ∧ 1 ≤ s.mdist.toNat ∧ s.mdist.toNat ≤ 32768 := by
  decide +kernel

theorem witness_HeaderElementsComplete :
    let s := payload .hdr [0x01]
    s.fsm = Fsm.hdr.code ∧ (s.consumed 1 1).truncated = false ∧ ((s.consumed 1 1).consumed 2 2).truncated = false := by
  decide +kernel

/-- One state for each element; a matching and a wrong NLEN, LEN 0, the last byte and one before it. -/
theorem witness_StoredElementsComplete :
    (let s : State := { payload .storedAlign [0x01] with inPos := 1, bitCnt := 5 };
      s.fsm = Fsm.storedAlign.code ∧ (s.shiftOut (s.bitCnt.toNat % 8)).truncated = false) ∧
    (let s := payload .storedLen [0x02, 0x00];
      s.fsm = Fsm.storedLen.code ∧ (s.consumed 16 16).truncated = false) ∧
    (∀ p ∈ [(2, 0xFFFD), (2, 0xFFFC), (0, 0xFFFF)],
      let s : State := { payload .storedNlen [0xFD, 0xFF] with storedLen := BitVec.ofNat 16 p.1 }
      s.fsm = Fsm.storedNlen.code ∧ (s.consumed 16 16).truncated = false ∧
        ((s.storedLen ≠ ~~~BitVec.ofNat 16 p.2) ↔ p.2 = 0xFFFC)) ∧
    (∀ r ∈ [1, 2],
      let s : State := { payload .storedCopy [0x48] with rem := BitVec.ofNat 16 r }
      s.fsm = Fsm.storedCopy.code ∧ s.rem ≠ 0 ∧ s.pins.outReady = true ∧ (s.consumed 8 8).truncated = false) := by
  decide +kernel

theorem witness_DynamicHeaderElementsComplete :
    (let s := payload .dynHdr [0x01, 0x00];
      s.fsm = Fsm.dynHdr.code ∧ (s.consumed 5 5).truncated = false ∧
        ((s.consumed 5 5).consumed 5 5).truncated = false ∧
        (((s.consumed 5 5).consumed 5 5).consumed 4 4).truncated = false) ∧
    (∀ p ∈ [(0, 4), (18, 19)],
      let s : State := { payload .dynCllen [0x01] with idx := BitVec.ofNat 9 p.1, nclen := BitVec.ofNat 5 p.2 }
      s.fsm = Fsm.dynCllen.code ∧ s.idx.toNat < s.nclen.toNat ∧ s.nclen.toNat ≤ 19 ∧
        (s.consumed 3 3).truncated = false) := by
  decide +kernel

/-- Each of the four elements filling `LENS` to its end; the first also one short of the end. -/
theorem witness_CodeLengthElementsComplete :
    ∀ p ∈ [(Instr.clLen 1, 1, 0, 1, 256), (.clLen 1, 1, 0, 1, 257), (.clRep16 3, 16, 2, 3, 255),
        (.clZero17 10, 17, 3, 10, 248), (.clZero18 138, 18, 7, 138, 120)],
      let s : State :=
        { payload .dynLens [0x00, 0x00] with
          clLen := soleVector 19 3 p.2.1, nlit := 257, ndist := 1, idx := BitVec.ofNat 9 p.2.2.2.2 }
      (p.1 = .clLen 1 ∨ p.1 = .clRep16 p.2.2.2.1 ∧ s.idx ≠ 0 ∨ p.1 = .clZero17 p.2.2.2.1 ∨
          p.1 = .clZero18 p.2.2.2.1) ∧
        p.1.clSymbol = some p.2.1 ∧ s.fsm = Fsm.dynLens.code ∧ codeLen s.clTable p.2.1 = 1 ∧ s.lensTotal ≤ 316 ∧
        s.idx.toNat + p.2.2.2.1 ≤ s.lensTotal ∧ (s.consumed 7 1).truncated = false ∧
        ((s.consumed 7 1).consumed p.2.2.1 p.2.2.1).truncated = false := by
  decide +kernel

/-- Literals of both code lengths, and EOB. -/
theorem witness_LiteralAndEobComplete :
    let s : State := { payload .sym [0x8E, 0x00] with tblSel := true }
    s.fsm = Fsm.sym.code ∧ s.pins.outReady = true ∧
      ∀ k ∈ [0, 143, 144, 255, 256],
        codeLen s.litTable k ≠ 0 ∧ (s.consumed 15 (codeLen s.litTable k)).truncated = false := by
  decide +kernel

/-- 286 and 287 with a code (the fixed table), 30 and 31 without one. -/
theorem witness_MeaninglessSymbolsRaise :
    let s : State := { payload .sym [0x63, 0x00] with tblSel := true }
    let d : State := payload .distSym [0x00]
    s.fsm = Fsm.sym.code ∧ d.fsm = Fsm.distSym.code ∧
      (∀ k ∈ [286, 287], codeLen s.litTable k = 8 ∧ (s.consumed 15 8).truncated = false) ∧
      ∀ k ∈ [30, 31], codeLen d.distTable k = 0 := by
  decide +kernel

/-- The first and the last length element and one with five extra bits, in both steps. -/
theorem witness_LengthElementsComplete :
    ∀ p ∈ [(Instr.len257, 257), (.len284 31, 284), (.len285, 285)],
      p.1.litLenSymbol = some p.2 ∧
        (let s : State := { payload .sym [0x00, 0x00] with tblSel := true };
        s.fsm = Fsm.sym.code ∧ codeLen s.litTable p.2 ≠ 0 ∧
          (s.consumed 15 (codeLen s.litTable p.2)).truncated = false) ∧
        (let s : State := { payload .lenExtra [0x1F] with lsym := BitVec.ofNat 9 p.2 };
        s.fsm = Fsm.lenExtra.code ∧ s.lsym.toNat = p.2 ∧ (s.consumed (lextOf p.2) (lextOf p.2)).truncated = false) := by
  decide +kernel

/-- The first and the last distance element in both steps, with the distance just inside and just outside the history. -/
theorem witness_DistanceElementsComplete :
    ∀ p ∈ [(Instr.dist0, 0, 1), (.dist29 8191, 29, 32768)],
      p.1.distSymbol = some p.2.1 ∧
        (let s : State := { payload .distSym [0x00, 0x00] with tblSel := true };
        s.fsm = Fsm.distSym.code ∧ codeLen s.distTable p.2.1 ≠ 0 ∧
          (s.consumed 15 (codeLen s.distTable p.2.1)).truncated = false) ∧
        ∀ h ∈ [p.2.2, p.2.2 - 1],
          let s : State :=
            { payload .distExtra [0xFF, 0x1F] with dsym := BitVec.ofNat 5 p.2.1, histLen := BitVec.ofNat 16 h }
          s.fsm = Fsm.distExtra.code ∧ s.dsym.toNat = p.2.1 ∧
            (s.consumed (dextOf p.2.1) (dextOf p.2.1)).truncated = false ∧
            (dbaseOf p.2.1 + extraValue p.1 ≤ s.histLen.toNat ↔ h = p.2.2) := by
  decide +kernel

theorem witness_ElementsKeepCallInputsAndTables : ∃ t, exec .eob { payload .sym [] with tblSel := true } = .next t :=
  (next_of_shows (g := fun _ => true) (by decide +kernel)).imp fun _ h => h.1

theorem witness_HeaderElementsFrame :
    ∃ t t', exec (.hdrStored true) (payload .hdr [0x01]) = .next t ∧
      exec (.hdrReserved true) (payload .hdr [0x07]) = .next t' :=
  have ⟨t, h, _⟩ := next_of_shows (o := exec (.hdrStored true) (payload .hdr [0x01])) (g := fun _ => true)
    (by decide +kernel)
  have ⟨t', h', _⟩ := next_of_shows (o := exec (.hdrReserved true) (payload .hdr [0x07])) (g := fun _ => true)
    (by decide +kernel)
  ⟨t, t', h, h'⟩

/-- The states in which `STORED_LEN` and `REM` change, and one in which neither does. -/
theorem witness_StoredFieldElementsFrame :
    (∃ t, exec .storedAlign (payload .storedAlign []) = .next t ∧ (t.storedLen == 0) = true) ∧
      (∃ t, exec (.storedLen 2) (payload .storedLen []) = .next t ∧ (t.storedLen == 2) = true) ∧
      ∃ t, exec (.storedNlen 0xFFFD) { payload .storedNlen [] with storedLen := 2 } = .next t ∧
        (t.rem == 2) = true :=
  ⟨next_of_shows (by decide +kernel), next_of_shows (by decide +kernel), next_of_shows (by decide +kernel)⟩

/-- A byte written at `WPOS` = 0, address 1 being outside. -/
theorem witness_ByteElementsFrame :
    (∃ t, exec (.storedByte 7) { payload .storedCopy [] with rem := 1 } = .next t ∧
        (Memory.read t.win 0 == 7) = true) ∧
      ∃ t, exec (.lit 7) { payload .sym [] with tblSel := true } = .next t ∧ (Memory.read t.win 0 == 7) = true :=
  ⟨next_of_shows (by decide +kernel), next_of_shows (by decide +kernel)⟩

/-- `LENS` written below `IDX` = 10 after the step and at no other place. -/
theorem witness_DynamicElementsFrame :
    (∃ t, exec (.dynHdr 1 1 14) (payload .dynHdr []) = .next t ∧ (t.nlit == 258) = true) ∧
      (∃ t, exec (.dynCllen 1) { payload .dynCllen [] with nclen := 4 } = .next t ∧ (t.nlit == 0) = true) ∧
      ∃ t, exec (.clZero17 10) { payload .dynLens [] with clLen := soleVector 19 3 17, nlit := 257, ndist := 1 } = .next t ∧
        (t.idx == 10) = true :=
  ⟨next_of_shows (by decide +kernel), next_of_shows (by decide +kernel), next_of_shows (by decide +kernel)⟩

theorem witness_LengthElementsFrame :
    (∃ t, exec .len257 { payload .sym [] with tblSel := true } = .next t ∧ (t.lsym == 257) = true) ∧
      (∃ t, exec .len257 { payload .lenExtra [] with lsym := 257 } = .next t ∧ (t.mlen == 3) = true) ∧
      ∃ t, exec .eob { payload .sym [] with tblSel := true } = .next t ∧ (t.lsym == 0) = true :=
  ⟨next_of_shows (by decide +kernel), next_of_shows (by decide +kernel), next_of_shows (by decide +kernel)⟩

theorem witness_DistanceElementsFrame :
    (∃ t, exec .dist1 { payload .distSym [] with tblSel := true } = .next t ∧ (t.dsym == 1) = true) ∧
      (∃ t, exec .dist1 { payload .distExtra [] with dsym := 1, histLen := 2, mlen := 3 } = .next t ∧
        (t.mdist == 2) = true) ∧
      ∃ t, exec .distsym30 (payload .distSym []) = .next t ∧ (t.dsym == 0) = true :=
  ⟨next_of_shows (by decide +kernel), next_of_shows (by decide +kernel), next_of_shows (by decide +kernel)⟩

/-- In SYM with the fixed tables after two bytes. -/
theorem inv_sym (bs : List Byte) (h : bs = [0x8E] ∨ bs = []) (strict : Bool) :
    State.Inv { twoBytes .sym bs with tblSel := true, strict := strict } := by
  rcases h with rfl | rfl <;> cases strict <;>
    exact inv_of .sym (by decide +kernel) (fun h => by cases h) (by decide +kernel) (by decide +kernel)
      (by decide +kernel)

/-- In COPY, three bytes to go from distance 2. -/
theorem inv_copy : State.Inv { twoBytes .copy [] with tblSel := true, mdist := 2, rem := 3 } :=
  inv_of .copy (by decide +kernel) ⟨fun h => (by cases h), by decide +kernel⟩ (by decide +kernel) (by decide +kernel)
    (by decide +kernel)

/-- In STORED_COPY, two raw bytes to go. -/
theorem inv_storedCopy : State.Inv { payload .storedCopy [0x48, 0x69] with rem := 2, bfinal := true } :=
  inv_of .storedCopy (by decide +kernel) (show (2 : BitVec 16) ≠ 0 by decide) (by decide +kernel) (by decide +kernel)
    (by decide +kernel)

/-- In HDR with a reserved block type ahead. -/
theorem inv_hdr : State.Inv (payload .hdr [0x07]) :=
  inv_of .hdr (by decide +kernel) trivial (by decide +kernel) (by decide +kernel) (by decide +kernel)

/-- At rest after a call that ended in DONE, and in ERROR. -/
theorem inv_atRest (f : Fsm) (h : f = .done ∨ f = .error) :
    State.Inv { twoBytes f [] with errCode := if f = .error then 5 else 0 } := by
  rcases h with rfl | rfl
  · exact inv_of .done (by decide +kernel) trivial (by decide +kernel) (by decide +kernel) (by decide +kernel)
  · exact inv_of .error (by decide +kernel) trivial (by decide +kernel) (by decide +kernel) (by decide +kernel)

/-- In DYN_LENS with the tables of HB10, in DYN_CLLEN and in DYN_BUILD: the invariant's other clauses have states. -/
theorem inv_dynamic :
    State.Inv { payload .dynLens [0x01] with clLen := clHb10, nlit := 257, ndist := 1, idx := 257 } ∧
      State.Inv { payload .dynCllen [0x01] with nlit := 286, ndist := 30, nclen := 19, idx := 18 } ∧
      State.Inv { payload .dynBuild [0x01] with nlit := 257, ndist := 1, idx := 258 } :=
  ⟨inv_of .dynLens (by decide +kernel) ⟨by unfold State.countsLegal; decide +kernel, by decide +kernel⟩
      (by decide +kernel) (by decide +kernel) (by decide +kernel),
    inv_of .dynCllen (by decide +kernel) ⟨by unfold State.countsLegal; decide +kernel, by decide +kernel⟩
      (by decide +kernel) (by decide +kernel) (by decide +kernel),
    inv_of .dynBuild (by decide +kernel) ⟨by unfold State.countsLegal; decide +kernel, by decide +kernel⟩
      (by decide +kernel) (by decide +kernel) (by decide +kernel)⟩

theorem witness_StepKeepsInvariant :
    ∃ s t : State, s.Inv ∧ step s = .next t ∧ (t.out.length == 3) = true :=
  have ⟨t, h⟩ := next_of_shows (o := step { twoBytes .copy [] with tblSel := true, mdist := 2, rem := 3 })
    (g := fun t => t.out.length == 3) (by decide +kernel)
  ⟨_, t, inv_copy, h⟩

theorem witness_InvariantStatesNeverFault :
    State.Inv (payload .hdr [0x07]) ∧ State.Inv { twoBytes .sym [0x8E] with tblSel := true, strict := true } :=
  ⟨inv_hdr, inv_sym _ (.inl rfl) true⟩

theorem witness_ResetWinsOverEverything :
    ({ twoBytes .copy [] with pins := { State.reset.pins with rst := true, start := true } } : State).pins.rst = true :=
  rfl

/-- Each state at rest, with an empty payload and with the largest the width of `SRC_LEN` holds. -/
theorem witness_StartBeginsACall :
    ∀ f ∈ [Fsm.idle, .done, .error], ∀ n ∈ [0, 2 ^ 32 - 1],
      let s : State := { twoBytes f [] with pins := { State.reset.pins with start := true, srcLen := n } }
      s.pins.rst = false ∧ s.pins.start = true ∧
        (s.fsm = Fsm.idle.code ∨ s.fsm = Fsm.done.code ∨ s.fsm = Fsm.error.code) ∧
        s.pins.srcLen < 2 ^ s.cfg.srcLenW := by
  decide +kernel

/-- A running call, with a step that answers a next state and with one that faults. -/
theorem witness_StartIsIgnoredWhileBusy :
    (let s : State := payload .hdr [0x01];
      s.pins.rst = false ∧ s.busy = true ∧ shows (step s) (fun t => t.fsm) = some Fsm.storedAlign.code) ∧
    (let s : State := { payload .hdr [0x01] with fsm := 19 };
      s.pins.rst = false ∧ s.busy = true ∧ shows (step s) (fun t => t.fsm) = none) := by
  decide +kernel

theorem witness_StatesWithoutAStep :
    (∀ f ∈ [Fsm.idle, .done, .error], (payload f [0x01]).pins.rst = false ∧ (payload f [0x01]).pins.start = false) ∧
      ∀ c ∈ [19, 31],
        let s : State := { payload .hdr [] with fsm := BitVec.ofNat 5 c }
        s.pins.rst = false ∧ 19 ≤ s.fsm.toNat := by
  decide +kernel

theorem ownStep_payload (f : Fsm) (bs : List Byte) : (payload f bs).ownStep := ⟨rfl, rfl⟩

theorem witness_RaiseWritesErrorEntryAlone :
    ∃ s t : State, s.ownStep ∧ s.fsm ≠ Fsm.error.code ∧ step s = .next t ∧ (t.fsm == Fsm.error.code) = true :=
  have ⟨t, h, h'⟩ := next_of_shows (o := step (payload .hdr [0x07])) (g := fun t => t.fsm == Fsm.error.code)
    (by decide +kernel)
  ⟨_, t, ownStep_payload .hdr [0x07], by decide, h, h'⟩

theorem witness_StepRaisesOnlyItsErrors :
    ∃ s t : State, s.Inv ∧ s.ownStep ∧ s.fsm = Fsm.hdr.code ∧ step s = .next t ∧ (t.fsm == Fsm.error.code) = true :=
  have ⟨t, h, h'⟩ := next_of_shows (o := step (payload .hdr [0x07])) (g := fun t => t.fsm == Fsm.error.code)
    (by decide +kernel)
  ⟨_, t, inv_hdr, ownStep_payload .hdr [0x07], rfl, h, h'⟩

/-- A step that would produce a byte, one that would not, and one that faults, all with `out_ready` = 0. -/
theorem witness_StalledStepHoldsOnlyProduction :
    let p : Pins := { State.reset.pins with outReady := false }
    let a : State := { payload .sym [0x8E] with tblSel := true, pins := p }
    let b : State := { payload .hdr [0x01] with pins := p }
    let c : State := { payload .hdr [0x01] with pins := p, fsm := 19 }
    (∀ s ∈ [a, b, c], s.pins.rst = false ∧ s.busy = true ∧ s.pins.outReady = false) ∧
      shows (step a.ready) (fun t => t.out == a.out) = some false ∧
      shows (step b.ready) (fun t => t.out == b.out) = some true ∧ shows (step c.ready) (fun _ => ()) = none := by
  decide +kernel

theorem witness_StepProducesAtMostOneByte :
    ∃ s t : State, s.ownStep ∧ step s = .next t ∧ (t.out.length == s.out.length + 1) = true :=
  have ⟨t, h⟩ := next_of_shows (o := step { payload .storedCopy [0x48] with rem := 1 })
    (g := fun t => t.out.length == 1) (by decide +kernel)
  ⟨_, t, ⟨rfl, rfl⟩, h⟩

/-- A byte presented with and without `out_ready`, and a step that transfers the byte. -/
theorem witness_OutputPortTransfersOnReady :
    ∀ r ∈ [true, false],
      let s : State := { payload .storedCopy [0x48] with rem := 1, pins := { State.reset.pins with outReady := r } }
      s.pins.rst = false ∧ s.outPort = some 0x48 ∧ s.pins.outReady = r ∧
        (r = true → after s (fun t => t.out) = some (s.out ++ [0x48])) := by
  decide +kernel

theorem witness_CursorNeverRegresses : ∃ s t : State, s.Inv ∧ s.ownStep ∧ step s = .next t ∧ (t.cur == 7) = true :=
  have ⟨t, h⟩ := next_of_shows (o := step { twoBytes .sym [] with tblSel := true }) (g := fun t => t.cur == 7)
    (by decide +kernel)
  ⟨_, _, inv_sym [] (.inr rfl) false, ⟨rfl, rfl⟩, h⟩

/-- Another `SRC` that differs behind the cursor and past the payload's end. -/
theorem witness_StepReadsSourceAheadOnly :
    let s : State := { payload .sym [0x01, 0x8E] with tblSel := true, inPos := 1 }
    let m : List Host.Cell := [(0, 9), (1, 0x8E), (2, 5)]
    (∀ a < 5, s.inPos ≤ a → a < s.srcLen → Memory.read m a = Memory.read s.src a) ∧ s.srcLen = 2 ∧
      Memory.read m 0 ≠ Memory.read s.src 0 ∧ Memory.read m 2 ≠ Memory.read s.src 2 ∧
      shows (step s) (fun t => t.out) = some [0x41] := by
  decide +kernel

/-- Its first clause: an advancing step that reads offset 0, and another `SRC` that differs at the next offset. -/
theorem witness_StepReadsSourceAheadOnly_advance :
    let s : State := { payload .storedCopy [0x48, 0x69] with rem := 2 }
    let m : List Host.Cell := [(0, 0x48), (1, 5)]
    (∃ t, step s = .next t ∧ (t.fsm == Fsm.storedCopy.code && t.inPos == 1) = true) ∧ s.pins.outReady = true ∧
      (∀ a < 1, s.inPos ≤ a → Memory.read m a = Memory.read s.src a) ∧ Memory.read m 1 ≠ Memory.read s.src 1 :=
  ⟨next_of_shows (by decide +kernel), rfl, by decide +kernel⟩

/-- The byte before the cursor of the window, and the oldest byte of the history. -/
theorem witness_WinBackIsTheByteProducedDAgo :
    State.Inv { twoBytes .copy [] with tblSel := true, mdist := 2, rem := 3 } ∧
      ∀ d ∈ [1, 2],
        1 ≤ (BitVec.ofNat 16 d).toNat ∧ (BitVec.ofNat 16 d).toNat ≤ (twoBytes .copy []).histLen.toNat ∧
          (twoBytes .copy []).winBack (BitVec.ofNat 16 d) = if d = 1 then 0x42 else 0x41 :=
  ⟨inv_copy, by decide +kernel⟩

theorem witness_CopyRunIsByteByByte :
    let s : State := { twoBytes .copy [] with tblSel := true, mdist := 2, rem := 3 }
    s.Inv ∧ s.flowing ∧ s.fsm = Fsm.copy.code := ⟨inv_copy, ⟨rfl, rfl⟩, rfl⟩

theorem witness_StoredRunIsVerbatim :
    let s : State := { payload .storedCopy [0x48, 0x69] with rem := 2, bfinal := true }
    s.Inv ∧ s.flowing ∧ s.fsm = Fsm.storedCopy.code ∧ s.bitCnt = 0 ∧ s.inPos + s.rem.toNat ≤ s.srcLen :=
  ⟨inv_storedCopy, ⟨rfl, rfl⟩, rfl, rfl, by decide +kernel⟩

theorem witness_StrictCallEnds :
    let s : State := { twoBytes .sym [0x8E] with tblSel := true, strict := true }
    s.Inv ∧ s.flowing ∧ s.strict = true ∧ s.busy = true := ⟨inv_sym _ (.inl rfl) true, ⟨rfl, rfl⟩, rfl, rfl⟩

/-- START pending in two states at rest that differ in `FSM`, `ERR_CODE`, a call register, a table and the lookup widths. -/
theorem witness_NoStateLeaksAcrossCalls :
    let p : Pins := { State.reset.pins with start := true, srcLen := 1 }
    let s : State := { twoBytes .done [] with pins := p, rem := 7, litLen := soleVector 288 4 65 }
    let s' : State :=
      { twoBytes .error [] with errCode := 5, pins := p, cfg := { Config.default with lbits := 9, dbits := 6 } }
    s.Inv ∧ s'.Inv ∧ s.cfg.rejectIncomplete = s'.cfg.rejectIncomplete ∧ s.cfg.srcLenW = s'.cfg.srcLenW ∧
      s.cfg.outCountW = s'.cfg.outCountW ∧ s.pins = s'.pins ∧ s.src = s'.src ∧ s.pins.rst = false ∧
      s.pins.start = true ∧ s.atRest = true ∧ s'.atRest = true :=
  have h : State.Inv { twoBytes .error [] with errCode := 5, pins := { State.reset.pins with start := true, srcLen := 1 } } :=
    inv_of .error (by decide +kernel) trivial (by decide +kernel) (by decide +kernel) (by decide +kernel)
  ⟨inv_of .done (by decide +kernel) trivial (by decide +kernel) (by decide +kernel) (by decide +kernel),
    { config := by unfold Config.legal; decide
      reader := { h.reader with }
      window := { h.window with }
      src_wf := h.src_wf, btype_ne := h.btype_ne, error_code := h.error_code, state := h.state },
    rfl, rfl, rfl, rfl, rfl, rfl, rfl, rfl, rfl⟩

theorem tableSound_hb10 : tableSound hb10 7 := by unfold tableSound; decide +kernel

theorem tableSound_fixedLitLen : tableSound fixedLitLen 15 := by unfold tableSound; decide +kernel

theorem tableSound_fixedDistLen : tableSound fixedDistLen 15 := by unfold tableSound; decide +kernel

/-- An element in each kind of context, with operands at an end of their range. -/
theorem witness_DecodeOfEncodeIsTheElement :
    (ctxSound (.clSym hb10) ∧ Instr.wellFormed (.clZero18 138) = true ∧
      encode (.clSym hb10) (.clZero18 138) = some (bits [0, 1, 1, 1, 1, 1, 1, 1])) ∧
    (ctxSound (.litLenSym fixedLitLen) ∧ Instr.wellFormed (.len284 31) = true ∧
      encode (.litLenSym fixedLitLen) (.len284 31) = some (bits [1, 1, 0, 0, 0, 1, 0, 0, 1, 1, 1, 1, 1])) ∧
    (ctxSound (.distSym fixedDistLen) ∧ Instr.wellFormed (.dist4 1) = true ∧
      encode (.distSym fixedDistLen) (.dist4 1) = some (bits [0, 0, 1, 0, 0, 1])) ∧
    (ctxSound .hdr ∧ encode .hdr (.hdrReserved true) = some (bits [1, 1, 1])) ∧
    (ctxSound (.lenExtra 265) ∧ encode (.lenExtra 265) (.len265 1) = some (bits [1])) ∧
    (ctxSound (.distExtra 29) ∧ encode (.distExtra 29) (.dist29 8191) = some (List.replicate 13 true)) :=
  ⟨⟨tableSound_hb10, by decide +kernel⟩, ⟨tableSound_fixedLitLen, by decide +kernel⟩,
    ⟨tableSound_fixedDistLen, by decide +kernel⟩, ⟨trivial, by decide +kernel⟩, ⟨trivial, by decide +kernel⟩,
    ⟨trivial, by decide +kernel⟩⟩

theorem witness_EncodeOfDecodeIsTheBits :
    Instr.len265 1 ≠ .storedAlign ∧
      decode (.litLenSym fixedLitLen) (bits [0, 0, 0, 1, 0, 0, 1, 1, 0]) = .ok (.len265 1, [false]) := by
  decide +kernel

/-- Codes of equal length and of different lengths. -/
theorem witness_CanonicalCodesArePrefixFree :
    tableSound fixedLitLen 15 ∧
      ∀ p ∈ [(0, 1), (256, 144), (287, 0)], codeLen fixedLitLen p.1 ≠ 0 ∧ codeLen fixedLitLen p.2 ≠ 0 ∧ p.1 ≠ p.2 :=
  ⟨tableSound_fixedLitLen, by decide +kernel⟩

/-- A set of each status, and an incomplete one that is degenerate. -/
theorem witness_OverSubscribedIffCodeSpaceExceeded :
    ∀ p ∈ [(hb10, 7, BuildStatus.ok), ([1, 1, 1], 15, .overSubscribed), ([2], 15, .incomplete), ([1], 15, .incomplete),
        ([0, 0], 15, .empty)],
      (∀ x ∈ p.1, x ≤ p.2.1) ∧ buildStatus p.1 p.2.1 = p.2.2 := by decide +kernel

/-- Both ends of `n`, and busy states of the invariant, at the end of the source too. -/
theorem witness_ReadBitsReadsTheNextBits :
    (0 : Nat) ≤ 16 ∧ 16 ≤ 16 ∧ (payload .hdr [0x07]).Inv ∧ (payload .hdr [0x07]).busy = true ∧
      State.Inv { twoBytes .sym [] with tblSel := true, strict := true } ∧
      State.busy { twoBytes .sym [] with tblSel := true, strict := true } = true :=
  ⟨by decide, by decide, inv_hdr, rfl, inv_sym [] (.inr rfl) true, rfl⟩

/-- One element of each kind of context, found at the cursor. -/
theorem witness_StepRunsTheDecodedElement :
    ∀ p ∈ [(payload .hdr [0x01], Fsm.hdr, Instr.hdrStored true),
        (payload .storedLen [0x02], .storedLen, .storedLen 2),
        (payload .dynHdr [0x21, 0x38], .dynHdr, .dynHdr 1 1 14),
        ({ payload .dynLens [0x03] with clLen := clHb10 }, .dynLens, .clLen 2),
        ({ payload .sym [0x8E] with tblSel := true }, .sym, .lit 0x41),
        ({ payload .lenExtra [0x01] with lsym := 265 }, .lenExtra, .len265 1),
        ({ payload .distSym [0x00] with tblSel := true }, .distSym, .dist0),
        ({ payload .distExtra [0x01] with dsym := 4 }, .distExtra, .dist4 1)],
      p.1.pins.rst = false ∧ (p.1.pins.start && p.1.atRest) = false ∧ p.1.fsm = p.2.1.code ∧
        p.2.2.wellFormed = true ∧
        (((p.1.ctx p.2.1).bind fun c => (decode c (p.1.peek 28)).toOption).map Prod.fst) = some p.2.2 := by
  decide +kernel

/-- A call, a state at rest, a move and a schedule that answer a next state from states of the invariant. -/
theorem witness_HostMovesKeepInvariant :
    (payload .hdr [0x07]).busy = true ∧ State.busy { twoBytes .done [] with errCode := 0 } = false ∧
      State.Inv { twoBytes .done [] with errCode := 0 } ∧
      (∃ t, State.hostMove (.load [1, 2]) { twoBytes .done [] with errCode := 0 } = .next t ∧
        (t.src == [(0, 1), (1, 2)]) = true) ∧
      (payload .hdr [0x07]).Inv ∧
      ∃ t, runCycles [[.drive State.reset.pins], []] (payload .hdr [0x07]) = .next t ∧ (t.errCode == 3) = true :=
  ⟨rfl, rfl, inv_atRest .done (.inl rfl), next_of_shows (by decide +kernel), inv_hdr,
    next_of_shows (by decide +kernel)⟩

end Sys2Proof.Tests
end

/-! # What a step can do, said once

A step that advances reads bits and then writes registers.  `Reads` is the first part, `Effect` the second, and
`stepOf_stepResult` says that every step advances so, raises or holds. -/

namespace Sys2Proof.Machine

/-! ### The bit reader's registers -/

/-- The registers that the bit reader writes (40_bit_reader.md rules R151, R152, R154). -/
structure Reader where
  inPos : Nat
  padCnt : BitVec 2
  pads : Nat
  bitBuf : BitVec 32
  bitCnt : BitVec 5

/-- The bit reader of a state. -/
def State.reader (s : State) : Reader := ⟨s.inPos, s.padCnt, s.pads, s.bitBuf, s.bitCnt⟩

/-- `s` with another bit reader. -/
def State.withReader (s : State) (r : Reader) : State :=
  { s with inPos := r.inPos, padCnt := r.padCnt, pads := r.pads, bitBuf := r.bitBuf, bitCnt := r.bitCnt }

theorem State.stageByte_eq_withReader (s : State) : s.stageByte = s.withReader s.stageByte.reader := by
  unfold State.stageByte State.byteIn
  split <;> rfl

theorem State.stageLoop_eq_withReader (n k : Nat) (s : State) :
    State.stageLoop n k s = s.withReader (State.stageLoop n k s).reader := by
  induction k generalizing s with
  | zero => rfl
  | succ k ih =>
    unfold State.stageLoop
    split
    · rw [ih s.stageByte]
      generalize (State.stageLoop n k s.stageByte).reader = r
      rw [State.stageByte_eq_withReader]
      rfl
    · rfl

/-- `NeedBits` and `DropBits` write the bit reader alone. -/
theorem State.consumed_eq_withReader (m n : Nat) (s : State) :
    s.consumed m n = s.withReader (s.consumed m n).reader := by
  unfold State.consumed State.staged
  rw [State.stageLoop_eq_withReader m 2 s]
  rfl

/-- `u` is `s` after reads of `k` bits in all, none of which raised TruncatedInput. -/
inductive Reads (s : State) : Nat → State → Prop
  | nothing : Reads s 0 s
  | field {k m n : Nat} {u : State} (hu : Reads s k u) (hm : m ≤ 16) (hn : n ≤ (u.staged m).bitCnt.toNat)
      (ht : (u.consumed m n).truncated = false) : Reads s (k + n) (u.consumed m n)

/-- Reading writes the bit reader alone. -/
theorem Reads.exists_reader {s u : State} {k : Nat} (h : Reads s k u) : ∃ r, u = s.withReader r := by
  induction h with
  | nothing => exact ⟨s.reader, rfl⟩
  | @field k m n u _ _ _ _ ih =>
    obtain ⟨r, rfl⟩ := ih
    exact ⟨((s.withReader r).consumed m n).reader, State.consumed_eq_withReader m n _⟩

/-! ### Which reads a computation makes -/

theorem bind_eq_ok {α β : Type} {x : Except Stop α} {k : α → Except Stop β} {b : β} (h : (x >>= k) = .ok b) :
    ∃ a, x = .ok a ∧ k a = .ok b := by
  cases x with
  | ok a => exact ⟨a, rfl, h⟩
  | error e => cases h

theorem dropBits_eq_ok {n : Nat} {s t : State} (h : dropBits n s = .ok t) :
    n ≤ s.bitCnt.toNat ∧ (s.shiftOut n).truncated = false ∧ t = s.shiftOut n := by
  unfold dropBits at h
  split at h
  · next hn =>
    split at h
    · cases h
    · next ht => exact ⟨hn, by simpa using ht, by cases h; rfl⟩
  · cases h

/-- `NeedBits(m)` then `DropBits(n)` reads `n` bits. -/
theorem Reads.needBits_dropBits {s u v t : State} {k m n : Nat} (hu : Reads s k u) (hv : needBits m u = .ok v)
    (ht : dropBits n v = .ok t) : Reads s (k + n) t := by
  unfold needBits at hv
  split at hv
  · next hm =>
    cases hv
    obtain ⟨hn, htr, rfl⟩ := dropBits_eq_ok ht
    exact .field hu hm hn htr
  · cases hv

theorem Reads.consume {s u t : State} {k m n : Nat} (hu : Reads s k u) (h : consume m n u = .ok t) :
    Reads s (k + n) t := by
  obtain ⟨v, hv, ht⟩ := bind_eq_ok h
  exact hu.needBits_dropBits hv ht

theorem Reads.consumeCode {s u t : State} {L : List Nat} {k m sym : Nat} (hu : Reads s k u)
    (h : consumeCode L m sym u = .ok t) : Reads s (k + codeLen L sym) t := by
  obtain ⟨v, hv, ht⟩ := bind_eq_ok h
  split at ht
  · cases ht
  · exact hu.needBits_dropBits hv ht

theorem Reads.readHeader {s t : State} (h : readHeader s = .ok t) : Reads s 3 t := by
  obtain ⟨u, hu, ht⟩ := bind_eq_ok h
  exact (Reads.nothing.consume hu).consume ht

theorem Reads.alignToByte {s t : State} (h : alignToByte s = .ok t) : Reads s (s.bitCnt.toNat % 8) t := by
  have h0 : needBits 0 s = .ok s := by rw [needBits_of_le (by omega), State.staged_of_le (by omega)]
  simpa using Reads.nothing.needBits_dropBits h0 h

/-! ### What is written after the reads -/

/-- What an advancing step in an FSM state writes after its reads have led to `u`: the step of the element where one is
named, else of FIXED_SETUP, DYN_CLBUILD, DYN_BUILD or COPY. -/
inductive Effect : Option Instr → Fsm → State → State → Prop
  | header {i : Instr} {u : State} {f : Bool} {b : BitVec 2} {g : Fsm}
      (hi : (i = .hdrStored f ∧ b = 0 ∧ g = .storedAlign) ∨ (i = .hdrFixed f ∧ b = 1 ∧ g = .fixedSetup) ∨
        (i = .hdrDynamic f ∧ b = 2 ∧ g = .dynHdr)) :
      Effect (some i) .hdr u { u with bfinal := f, btype := b, fsm := g.code }
  | storedAlign {u : State} :
      Effect (some .storedAlign) .storedAlign u (u.goto .storedLen)
  | storedLen {u : State} {v : BitVec 16} :
      Effect (some (.storedLen v)) .storedLen u { u with storedLen := v, fsm := Fsm.storedNlen.code }
  | storedEmpty {u : State} {v : BitVec 16} (hv : u.storedLen = ~~~v)
      (h0 : u.storedLen = 0) : Effect (some (.storedNlen v)) .storedNlen u u.blockEnd
  | storedNlen {u : State} {v : BitVec 16} (hv : u.storedLen = ~~~v)
      (h0 : u.storedLen ≠ 0) :
      Effect (some (.storedNlen v)) .storedNlen u { u with rem := u.storedLen, fsm := Fsm.storedCopy.code }
  | storedByte {u : State} {b : Byte} (ho : u.pins.outReady = true) (h0 : u.rem - 1 ≠ 0) :
      Effect (some (.storedByte b)) .storedCopy u { (u.winPut b).outPush b with rem := u.rem - 1 }
  | storedLast {u : State} {b : Byte} (ho : u.pins.outReady = true) (h0 : u.rem - 1 = 0) :
      Effect (some (.storedByte b)) .storedCopy u (State.blockEnd { (u.winPut b).outPush b with rem := u.rem - 1 })
  | dynHdr {u : State} {hl hd : BitVec 5} {hc : BitVec 4} (hl29 : hl.toNat ≤ 29) (hd29 : hd.toNat ≤ 29) :
      Effect (some (.dynHdr hl hd hc)) .dynHdr u
        { u with
          nlit := BitVec.ofNat 9 (hl.toNat + 257)
          ndist := BitVec.ofNat 6 (hd.toNat + 1)
          nclen := BitVec.ofNat 5 (hc.toNat + 4)
          clLen := Vector.replicate 19 0
          idx := 0
          fsm := Fsm.dynCllen.code }
  | dynCllen {u : State} {v : BitVec 3} {j : Nat} (hj : perm[u.idx.toNat]? = some j) :
      Effect (some (.dynCllen v)) .dynCllen u
        { u with
          clLen := u.clLen.setIfInBounds j v
          idx := BitVec.ofNat 9 (u.idx.toNat + 1)
          fsm := if u.idx.toNat + 1 = u.nclen.toNat then Fsm.dynClbuild.code else Fsm.dynCllen.code }
  | codeLengths {i : Instr} {u : State} {v : BitVec 4} {r : Nat} (hi : i.clSymbol ≠ none)
      (hr : u.idx.toNat + r ≤ u.lensTotal) (h316 : u.idx.toNat + r ≤ 316) :
      Effect (some i) .dynLens u
        { u with
          lens := fillLens u.lens v u.idx.toNat r
          idx := BitVec.ofNat 9 (u.idx.toNat + r)
          fsm := if u.idx.toNat + r = u.lensTotal then Fsm.dynBuild.code else Fsm.dynLens.code }
  | lit {u : State} {b : Byte} (ho : u.pins.outReady = true) :
      Effect (some (.lit b)) .sym u ((u.winPut b).outPush b)
  | eob {u : State} : Effect (some .eob) .sym u u.blockEnd
  | lenSym {i : Instr} {u : State} {sym : Nat} (hi : i.litLenSymbol = some sym) (h257 : 257 ≤ sym)
      (h285 : sym ≤ 285) :
      Effect (some i) .sym u { u with lsym := BitVec.ofNat 9 sym, fsm := Fsm.lenExtra.code }
  | lenExtra {i : Instr} {u : State} {sym : Nat} (hi : i.litLenSymbol = some sym) (h257 : 257 ≤ sym)
      (h285 : sym ≤ 285) (hs : u.lsym.toNat = sym) :
      Effect (some i) .lenExtra u
        { u with mlen := BitVec.ofNat 9 (lbaseOf sym + extraValue i), fsm := Fsm.distSym.code }
  | distSym {i : Instr} {u : State} {d : Nat} (hi : i.distSymbol = some d) (h29 : d ≤ 29) :
      Effect (some i) .distSym u { u with dsym := BitVec.ofNat 5 d, fsm := Fsm.distExtra.code }
  | distExtra {i : Instr} {u : State} {d : Nat} (hi : i.distSymbol = some d) (h29 : d ≤ 29)
      (hs : u.dsym.toNat = d) (hh : dbaseOf d + extraValue i ≤ u.histLen.toNat) :
      Effect (some i) .distExtra u
        { u with
          mdist := BitVec.ofNat 16 (dbaseOf d + extraValue i)
          rem := u.mlen.setWidth 16
          fsm := Fsm.copy.code }
  | fixedSetup {u : State} : Effect none .fixedSetup u { u with tblSel := true, fsm := Fsm.sym.code }
  | dynClbuild {u : State} (hb : buildDyn u.cfg.rejectIncomplete u.clTable 7 = none) :
      Effect none .dynClbuild u { u with idx := 0, fsm := Fsm.dynLens.code }
  | dynBuild {u : State}
      (hl : buildDyn u.cfg.rejectIncomplete (natLens u.litLenFromLens) 15 = none)
      (hd : buildDyn u.cfg.rejectIncomplete (natLens u.distLenFromLens) 15 = none) :
      Effect none .dynBuild u
        { u with
          litLen := u.litLenFromLens, distLen := u.distLenFromLens, tblSel := false, fsm := Fsm.sym.code }
  | copy {u : State} (ho : u.pins.outReady = true) :
      Effect none .copy u
        { (u.winPut (u.winBack u.mdist)).outPush (u.winBack u.mdist) with
          rem := u.rem - 1, fsm := if u.rem - 1 = 0 then Fsm.sym.code else Fsm.copy.code }

/-- An advancing step: reads of at most 16 bits, then the writes. -/
def Advance (o : Option Instr) (s t : State) : Prop :=
  ∃ k u f, k ≤ 16 ∧ Reads s k u ∧ u.fsm = Fsm.code f ∧ Effect o f u t

/-- How a step that starts in `s` may answer `t`: it advances, raises or holds (45_stream_controller.md rule R404). -/
def StepResult (o : Option Instr) (s t : State) : Prop := Advance o s t ∨ (∃ e, t = s.raise e) ∨ t = s

/-- What a computation that does not stop does is what its step does. -/
theorem StepResult.of_finish {o : Option Instr} {s t : State} {r : Except Stop State} (h : finish s r = .next t)
    (hok : r = .ok t → Advance o s t) : StepResult o s t := by
  rcases finish_eq_next h with hr | ⟨e, -, ht⟩ | ⟨-, ht⟩
  · exact .inl (hok hr)
  · exact .inr (.inl ⟨e, ht⟩)
  · exact .inr (.inr ht)

/-- The same for an element, which is at the cursor in one FSM state alone. -/
theorem StepResult.of_inState {o : Option Instr} {f : Fsm} {s t : State} {r : Except Stop State}
    (h : inState f s r = .next t) (hok : s.fsm = f.code → r = .ok t → Advance o s t) : StepResult o s t := by
  obtain ⟨hf, hfin⟩ := inState_eq_next h
  exact .of_finish hfin (hok hf)

/-! ### The elements -/

/-- Elements whose step is `header`: the reads of HDR, then BFINAL, BTYPE and the block's first state. -/
theorem header_stepResult {i : Instr} {f : Bool} {b : BitVec 2} {g : Fsm} {s t : State}
    (hi : (i = .hdrStored f ∧ b = 0 ∧ g = .storedAlign) ∨ (i = .hdrFixed f ∧ b = 1 ∧ g = .fixedSetup) ∨
      (i = .hdrDynamic f ∧ b = 2 ∧ g = .dynHdr)) (h : header f b g s = .next t) : StepResult (some i) s t :=
  .of_inState h fun hf hr => by
    obtain ⟨u, hu, ht⟩ := bind_eq_ok hr
    have hread := Reads.readHeader hu
    obtain ⟨r, rfl⟩ := hread.exists_reader
    cases ht
    exact ⟨3, _, _, by omega, hread, hf, .header hi⟩

theorem execHdrReserved_stepResult {o : Option Instr} {f : Bool} {s t : State} (h : execHdrReserved f s = .next t) :
    StepResult o s t :=
  .of_inState h fun _ hr => by
    obtain ⟨u, -, ht⟩ := bind_eq_ok hr
    cases ht

theorem execStoredAlign_stepResult {s t : State} (h : execStoredAlign s = .next t) :
    StepResult (some .storedAlign) s t :=
  .of_inState h fun hf hr => by
    obtain ⟨u, hu, ht⟩ := bind_eq_ok hr
    have hread := Reads.alignToByte hu
    obtain ⟨r, rfl⟩ := hread.exists_reader
    cases ht
    exact ⟨_, _, _, by omega, hread, hf, .storedAlign⟩

theorem execStoredLen_stepResult {v : BitVec 16} {s t : State} (h : execStoredLen v s = .next t) :
    StepResult (some (.storedLen v)) s t :=
  .of_inState h fun hf hr => by
    obtain ⟨u, hu, ht⟩ := bind_eq_ok hr
    have hread := Reads.nothing.consume hu
    obtain ⟨r, rfl⟩ := hread.exists_reader
    cases ht
    exact ⟨_, _, _, by omega, hread, hf, .storedLen⟩

theorem execStoredNlen_stepResult {v : BitVec 16} {s t : State} (h : execStoredNlen v s = .next t) :
    StepResult (some (.storedNlen v)) s t :=
  .of_inState h fun hf hr => by
    obtain ⟨u, hu, ht⟩ := bind_eq_ok hr
    have hread := Reads.nothing.consume hu
    obtain ⟨r, rfl⟩ := hread.exists_reader
    split at ht
    · cases ht
    · next hv =>
      have hv := not_not.mp hv
      split at ht
      · next h0 => cases ht; exact ⟨_, _, _, by omega, hread, hf, .storedEmpty hv h0⟩
      · next h0 => cases ht; exact ⟨_, _, _, by omega, hread, hf, .storedNlen hv h0⟩

theorem execStoredByte_stepResult {b : Byte} {s t : State} (h : execStoredByte b s = .next t) :
    StepResult (some (.storedByte b)) s t :=
  .of_inState h fun hf hr => by
    obtain ⟨u, hu, ht⟩ := bind_eq_ok hr
    have hread := Reads.nothing.consume hu
    obtain ⟨r, rfl⟩ := hread.exists_reader
    obtain ⟨p, hp, ht⟩ := bind_eq_ok ht
    obtain ⟨ho, rfl⟩ := produce_eq_ok hp
    cases ht
    refine ⟨_, _, .storedCopy, by omega, hread, hf, ?_⟩
    split
    · next h0 => exact .storedLast ho h0
    · next h0 => exact .storedByte ho h0

theorem execDynHdr_stepResult {hl hd : BitVec 5} {hc : BitVec 4} {s t : State} (h : execDynHdr hl hd hc s = .next t) :
    StepResult (some (.dynHdr hl hd hc)) s t :=
  .of_inState h fun hf hr => by
    obtain ⟨u₁, h₁, hr⟩ := bind_eq_ok hr
    obtain ⟨u₂, h₂, hr⟩ := bind_eq_ok hr
    obtain ⟨u₃, h₃, ht⟩ := bind_eq_ok hr
    have hread := ((Reads.nothing.consume h₁).consume h₂).consume h₃
    obtain ⟨r, rfl⟩ := hread.exists_reader
    split at ht
    · cases ht
    · cases ht
      exact ⟨_, _, _, by omega, hread, hf, .dynHdr (by omega) (by omega)⟩

theorem execDynCllen_stepResult {v : BitVec 3} {s t : State} (h : execDynCllen v s = .next t) :
    StepResult (some (.dynCllen v)) s t :=
  .of_inState h fun hf hr => by
    obtain ⟨u, hu, ht⟩ := bind_eq_ok hr
    have hread := Reads.nothing.consume hu
    obtain ⟨r, rfl⟩ := hread.exists_reader
    split at ht
    · cases ht
    · next j hj =>
      cases ht
      exact ⟨_, _, _, by omega, hread, hf, .dynCllen hj⟩

/-- The end of every code-length element. -/
theorem putLengths_advance {i : Instr} {v : BitVec 4} {r k : Nat} {s u t : State} (hi : i.clSymbol ≠ none)
    (hf : s.fsm = Fsm.dynLens.code) (hk : k ≤ 16) (hread : Reads s k u) (h : putLengths v r u = .ok t) :
    Advance (some i) s t := by
  obtain ⟨hr, h316, rfl⟩ := putLengths_eq_ok h
  refine ⟨k, u, .dynLens, hk, hread, ?_, .codeLengths hi hr h316⟩
  obtain ⟨q, rfl⟩ := hread.exists_reader
  exact hf

theorem execClLen_stepResult {n : BitVec 4} {s t : State} (h : execClLen n s = .next t) :
    StepResult (some (.clLen n)) s t :=
  .of_inState h fun hf hr => by
    obtain ⟨u, hu, ht⟩ := bind_eq_ok hr
    have hlen := codeLen_clTable_le s n.toNat
    exact putLengths_advance (by simp [Instr.clSymbol]) hf (by omega) (Reads.nothing.consumeCode hu) ht

theorem execClRep16_stepResult {n : Nat} {s t : State} (h : execClRep16 n s = .next t) :
    StepResult (some (.clRep16 n)) s t :=
  .of_inState h fun hf hr => by
    obtain ⟨u, hu, hr⟩ := bind_eq_ok hr
    split at hr
    · cases hr
    · obtain ⟨w, hw, ht⟩ := bind_eq_ok hr
      have hlen := codeLen_clTable_le s 16
      exact putLengths_advance (by simp [Instr.clSymbol]) hf (by omega)
        ((Reads.nothing.consumeCode hu).consume hw) ht

theorem execClZero17_stepResult {n : Nat} {s t : State} (h : execClZero17 n s = .next t) :
    StepResult (some (.clZero17 n)) s t :=
  .of_inState h fun hf hr => by
    obtain ⟨u, hu, hr⟩ := bind_eq_ok hr
    obtain ⟨w, hw, ht⟩ := bind_eq_ok hr
    have hlen := codeLen_clTable_le s 17
    exact putLengths_advance (by simp [Instr.clSymbol]) hf (by omega)
      ((Reads.nothing.consumeCode hu).consume hw) ht

theorem execClZero18_stepResult {n : Nat} {s t : State} (h : execClZero18 n s = .next t) :
    StepResult (some (.clZero18 n)) s t :=
  .of_inState h fun hf hr => by
    obtain ⟨u, hu, hr⟩ := bind_eq_ok hr
    obtain ⟨w, hw, ht⟩ := bind_eq_ok hr
    have hlen := codeLen_clTable_le s 18
    exact putLengths_advance (by simp [Instr.clSymbol]) hf (by omega)
      ((Reads.nothing.consumeCode hu).consume hw) ht

theorem execLit_stepResult {b : Byte} {s t : State} (h : execLit b s = .next t) : StepResult (some (.lit b)) s t :=
  .of_inState h fun hf hr => by
    obtain ⟨u, hu, hp⟩ := bind_eq_ok hr
    have hlen := codeLen_litTable_le s b.toNat
    have hread := Reads.nothing.consumeCode hu
    obtain ⟨r, rfl⟩ := hread.exists_reader
    obtain ⟨ho, rfl⟩ := produce_eq_ok hp
    exact ⟨_, _, _, by omega, hread, hf, .lit ho⟩

theorem execEob_stepResult {s t : State} (h : execEob s = .next t) : StepResult (some .eob) s t :=
  .of_inState h fun hf hr => by
    obtain ⟨u, hu, ht⟩ := bind_eq_ok hr
    have hlen := codeLen_litTable_le s 256
    have hread := Reads.nothing.consumeCode hu
    obtain ⟨r, rfl⟩ := hread.exists_reader
    cases ht
    exact ⟨_, _, _, by omega, hread, hf, .eob⟩

theorem noLength_stepResult {o : Option Instr} {sym : Nat} {s t : State} (h : noLength sym s = .next t) :
    StepResult o s t := by
  obtain ⟨-, ht | ht⟩ := noLength_eq_next h <;> exact .inr (.inl ⟨_, ht⟩)

theorem noDistance_stepResult {o : Option Instr} {d : Nat} {s t : State} (h : noDistance d s = .next t) :
    StepResult o s t := by
  obtain ⟨-, ht | ht⟩ := noDistance_eq_next h <;> exact .inr (.inl ⟨_, ht⟩)

/-- The operand of an element is the value of its extra bits. -/
theorem bitsVal_fieldBits_toNat {n : Nat} (x : BitVec n) : bitsVal (fieldBits n x.toNat) = x.toNat := by
  rw [bitsVal_fieldBits, Nat.mod_eq_of_lt x.isLt]

/-- The 29 length elements are `lengthElement` with the tables of 93_implementation_defined.md G3. -/
theorem exec_of_lengthSymbol {i : Instr} {sym : Nat} (hi : i.litLenSymbol = some sym) (h257 : 257 ≤ sym)
    (h285 : sym ≤ 285) (s : State) :
    exec i s = lengthElement sym (lbaseOf sym) (lextOf sym) (extraValue i) s := by
  cases i
  case lit b => cases hi; omega
  case eob => cases hi; omega
  case litlen286 => cases hi; omega
  case litlen287 => cases hi; omega
  all_goals cases hi
  all_goals simp only [extraValue, Instr.extraBits, bitsVal_fieldBits_toNat, bitsVal]; rfl

/-- The 30 distance elements are `distElement` with the tables of 93_implementation_defined.md G3. -/
theorem exec_of_distSymbol {i : Instr} {d : Nat} (hi : i.distSymbol = some d) (h29 : d ≤ 29) (s : State) :
    exec i s = distElement d (dbaseOf d) (dextOf d) (extraValue i) s := by
  cases i
  case distsym30 => cases hi; omega
  case distsym31 => cases hi; omega
  all_goals cases hi
  all_goals simp only [extraValue, Instr.extraBits, bitsVal_fieldBits_toNat, bitsVal]; rfl

theorem lextOf_le (sym : Nat) : lextOf sym ≤ 5 := by
  have h : ∀ x ∈ lext, x ≤ 5 := by decide
  unfold lextOf
  rw [List.getD_eq_getElem?_getD]
  cases hx : lext[sym - 257]? with
  | none => simp
  | some x => simpa using h x (List.mem_of_getElem? hx)

theorem lengthElement_stepResult {i : Instr} {sym : Nat} {s t : State} (hi : i.litLenSymbol = some sym)
    (h257 : 257 ≤ sym) (h285 : sym ≤ 285) (h : exec i s = .next t) : StepResult (some i) s t := by
  rw [exec_of_lengthSymbol hi h257 h285] at h
  unfold lengthElement at h
  split at h
  · next hf =>
    refine .of_finish h fun hr => ?_
    obtain ⟨u, hu, ht⟩ := bind_eq_ok hr
    have hlen := codeLen_litTable_le s sym
    have hread := Reads.nothing.consumeCode hu
    obtain ⟨r, rfl⟩ := hread.exists_reader
    cases ht
    exact ⟨_, _, _, by omega, hread, hf, .lenSym hi h257 h285⟩
  · split at h
    · next hf =>
      refine .of_finish h fun hr => ?_
      obtain ⟨u, hu, ht⟩ := bind_eq_ok hr
      have hlen := lextOf_le sym
      have hread := Reads.nothing.consume hu
      obtain ⟨r, rfl⟩ := hread.exists_reader
      cases ht
      exact ⟨_, _, _, by omega, hread, hf.1, .lenExtra hi h257 h285 hf.2⟩
    · cases h

theorem distElement_stepResult {i : Instr} {d : Nat} {s t : State} (hi : i.distSymbol = some d) (h29 : d ≤ 29)
    (h : exec i s = .next t) : StepResult (some i) s t := by
  rw [exec_of_distSymbol hi h29] at h
  unfold Machine.distElement at h
  split at h
  · next hf =>
    refine .of_finish h fun hr => ?_
    obtain ⟨u, hu, ht⟩ := bind_eq_ok hr
    have hlen := codeLen_distTable_le s d
    have hread := Reads.nothing.consumeCode hu
    obtain ⟨r, rfl⟩ := hread.exists_reader
    cases ht
    exact ⟨_, _, _, by omega, hread, hf, .distSym hi h29⟩
  · split at h
    · next hf =>
      refine .of_finish h fun hr => ?_
      obtain ⟨u, hu, ht⟩ := bind_eq_ok hr
      have hlen : dextOf d ≤ 14 := by unfold dextOf; omega
      have hread := Reads.nothing.consume hu
      obtain ⟨r, rfl⟩ := hread.exists_reader
      split at ht
      · cases ht
      · next hh =>
        cases ht
        exact ⟨_, _, _, by omega, hread, hf.1, .distExtra hi h29 hf.2 (by exact Nat.le_of_not_lt hh)⟩
    · cases h

theorem exec_litLen_stepResult {i : Instr} {sym : Nat} {s t : State} (hi : i.litLenSymbol = some sym)
    (h : exec i s = .next t) : StepResult (some i) s t := by
  by_cases hs : 257 ≤ sym ∧ sym ≤ 285
  · exact lengthElement_stepResult hi hs.1 hs.2 h
  · cases i
    case lit b => exact execLit_stepResult h
    case eob => exact execEob_stepResult h
    case litlen286 => exact noLength_stepResult h
    case litlen287 => exact noLength_stepResult h
    all_goals cases hi <;> omega

theorem exec_dist_stepResult {i : Instr} {d : Nat} {s t : State} (hi : i.distSymbol = some d)
    (h : exec i s = .next t) : StepResult (some i) s t := by
  by_cases hd : d ≤ 29
  · exact distElement_stepResult hi hd h
  · cases i
    case distsym30 => exact noDistance_stepResult h
    case distsym31 => exact noDistance_stepResult h
    all_goals cases hi <;> omega

/-- What the meaning of an element can do. -/
theorem exec_stepResult {i : Instr} {s t : State} (h : exec i s = .next t) : StepResult (some i) s t := by
  cases hl : i.litLenSymbol with
  | some sym => exact exec_litLen_stepResult hl h
  | none =>
    cases hd : i.distSymbol with
    | some d => exact exec_dist_stepResult hd h
    | none =>
      cases i
      case hdrStored f => exact header_stepResult (.inl ⟨rfl, rfl, rfl⟩) h
      case hdrFixed f => exact header_stepResult (.inr (.inl ⟨rfl, rfl, rfl⟩)) h
      case hdrDynamic f => exact header_stepResult (.inr (.inr ⟨rfl, rfl, rfl⟩)) h
      case hdrReserved f => exact execHdrReserved_stepResult (f := f) h
      case storedAlign => exact execStoredAlign_stepResult h
      case storedLen v => exact execStoredLen_stepResult h
      case storedNlen v => exact execStoredNlen_stepResult h
      case storedByte b => exact execStoredByte_stepResult h
      case dynHdr hl hd hc => exact execDynHdr_stepResult h
      case dynCllen v => exact execDynCllen_stepResult h
      case clLen n => exact execClLen_stepResult h
      case clRep16 r => exact execClRep16_stepResult h
      case clZero17 r => exact execClZero17_stepResult h
      case clZero18 r => exact execClZero18_stepResult h
      all_goals cases hl
      all_goals cases hd

/-! ### The steps that read no element -/

theorem Advance.of_effect {o : Option Instr} {f : Fsm} {s t : State} (hf : s.fsm = f.code) (h : Effect o f s t) :
    Advance o s t := ⟨0, s, f, Nat.zero_le _, .nothing, hf, h⟩

theorem checkTable_eq_ok {reject : Bool} {L : List Nat} {maxb : Nat} {x : Unit}
    (h : checkTable reject L maxb = .ok x) : buildDyn reject L maxb = none := by
  unfold checkTable at h
  split at h
  · cases h
  · assumption

theorem stepFixedSetup_stepResult {s t : State} (hf : s.fsm = Fsm.fixedSetup.code) (h : stepFixedSetup s = .next t) :
    StepResult none s t :=
  .of_finish h fun hr => by cases hr; exact .of_effect hf .fixedSetup

theorem stepDynClbuild_stepResult {s t : State} (hf : s.fsm = Fsm.dynClbuild.code) (h : stepDynClbuild s = .next t) :
    StepResult none s t :=
  .of_finish h fun hr => by
    obtain ⟨x, hx, ht⟩ := bind_eq_ok hr
    cases ht
    exact .of_effect hf (.dynClbuild (checkTable_eq_ok hx))

theorem stepDynBuild_stepResult {s t : State} (hf : s.fsm = Fsm.dynBuild.code) (h : stepDynBuild s = .next t) :
    StepResult none s t :=
  .of_finish h fun hr => by
    split at hr
    · cases hr
    · obtain ⟨x, hx, hr⟩ := bind_eq_ok hr
      obtain ⟨y, hy, ht⟩ := bind_eq_ok hr
      cases ht
      exact .of_effect hf (.dynBuild (checkTable_eq_ok hx) (checkTable_eq_ok hy))

theorem stepCopy_stepResult {s t : State} (hf : s.fsm = Fsm.copy.code) (h : stepCopy s = .next t) :
    StepResult none s t :=
  .of_finish h fun hr => by
    obtain ⟨p, hp, ht⟩ := bind_eq_ok hr
    obtain ⟨ho, rfl⟩ := produce_eq_ok hp
    cases ht
    exact .of_effect hf (.copy ho)

/-! ### Every step -/

theorem runElement_stepResult {c : Ctx} {s t : State} (h : runElement c s = .next t) : ∃ o, StepResult o s t := by
  unfold runElement at h
  split at h
  · exact ⟨_, exec_stepResult h⟩
  · exact ⟨none, .inr (.inl ⟨_, by cases h; rfl⟩)⟩
  · cases h
  · cases h

/-- What the step of an FSM state can do. -/
theorem stepOf_stepResult {f : Fsm} {s t : State} (hf : s.fsm = f.code) (h : stepOf f s = .next t) :
    ∃ o, StepResult o s t := by
  unfold stepOf at h
  split at h
  · exact runElement_stepResult h
  · cases f
    case fixedSetup => exact ⟨_, stepFixedSetup_stepResult hf h⟩
    case dynClbuild => exact ⟨_, stepDynClbuild_stepResult hf h⟩
    case dynBuild => exact ⟨_, stepDynBuild_stepResult hf h⟩
    case copy => exact ⟨_, stepCopy_stepResult hf h⟩
    all_goals exact ⟨none, .inr (.inr (by cases h; rfl))⟩

/-- What a step can do when neither reset nor START takes it. -/
theorem step_stepResult {s t : State} (hs : s.ownStep) (h : step s = .next t) : ∃ o, StepResult o s t := by
  obtain ⟨hrst, hstart⟩ := hs
  rcases step_cases s with ⟨hr, -⟩ | ⟨-, h1, h2, -⟩ | ⟨-, -, ⟨-, hfault⟩ | ⟨f, hf, hstep⟩⟩
  · simp [hrst] at hr
  · simp [h1, h2] at hstart
  · rw [hfault] at h; cases h
  · exact stepOf_stepResult hf (hstep ▸ h)

end Sys2Proof.Machine

/-! # The invariant

The reads keep the invariant of the bit reader and move the cursor, the writes keep the rest. -/

namespace Sys2Proof.Machine

/-! ### The bit reader -/

/-- What the bit reader finds and never writes: the parameters, the levels, `STRICT`, `SRC_LEN` and `SRC`. -/
def State.callInputs (s : State) : Config × Pins × Bool × Nat × List Host.Cell :=
  (s.cfg, s.pins, s.strict, s.srcLen, s.src)

/-- The invariant of the bit reader speaks of the bit reader and the call's inputs alone. -/
theorem State.ReaderInv.congr {s t : State} (h : s.ReaderInv) (hr : t.reader = s.reader)
    (hc : t.callInputs = s.callInputs) (hb : t.busy = true → s.busy = true) : t.ReaderInv := by
  cases s
  cases t
  cases hr
  cases hc
  exact { h with staged_eq := fun hbusy => h.staged_eq (hb hbusy) }

theorem State.cur_congr {s t : State} (hr : t.reader = s.reader) : t.cur = s.cur := by
  simp only [State.reader, Reader.mk.injEq] at hr
  obtain ⟨h1, -, h3, -, h5⟩ := hr
  rw [State.cur, State.cur, h1, h3, h5]

/-- `ByteIn` gives the byte of the source that follows the staged ones, a zero byte past the end (R152). -/
theorem State.ReaderInv.byteIn_getLsbD {s : State} (h : s.ReaderInv) {j : Nat} (hj : j < 8) :
    s.byteIn.1.getLsbD j = s.sourceBit (8 * (s.inPos + s.pads) + j) := by
  have hdiv : (8 * (s.inPos + s.pads) + j) / 8 = s.inPos + s.pads := by omega
  have hmod : (8 * (s.inPos + s.pads) + j) % 8 = j := by omega
  rw [State.sourceBit, hdiv, hmod]
  unfold State.byteIn
  split
  · next hpos =>
    have hpads : s.pads = 0 := by
      by_contra hne
      have := h.padded_at_end hne
      omega
    simp [hpads, hpos]
  · have hend : ¬s.inPos + s.pads < s.srcLen := by omega
    simp [hend]

theorem State.stageByte_cur {s : State} (h : s.bitCnt.toNat < 16) : s.stageByte.cur = s.cur := by
  have hcnt := State.stageByte_bitCnt_toNat h
  have hpos : s.stageByte.inPos + s.stageByte.pads = s.inPos + s.pads + 1 := by
    unfold State.stageByte State.byteIn
    split <;> simp <;> omega
  unfold State.cur
  rw [hcnt, hpos]
  omega


theorem State.stageByte_callInputs (s : State) : s.stageByte.callInputs = s.callInputs := by
  simp [State.callInputs]

theorem State.stageByte_bitBuf_toNat_lt {s : State} (hbuf : s.bitBuf.toNat < 2 ^ s.bitCnt.toNat) :
    s.stageByte.bitBuf.toNat < 2 ^ (s.bitCnt.toNat + 8) := by
  rw [State.stageByte_bitBuf, BitVec.toNat_or]
  refine Nat.or_lt_two_pow (hbuf.trans_le (Nat.pow_le_pow_right (by omega) (by omega))) ?_
  rw [BitVec.toNat_shiftLeft, Nat.shiftLeft_eq, Nat.add_comm, Nat.pow_add]
  have hbyte : (s.byteIn.1.setWidth 32).toNat < 2 ^ 8 := by
    rw [BitVec.toNat_setWidth_of_le (by omega)]
    exact s.byteIn.1.isLt
  exact (Nat.mod_le _ _).trans_lt (Nat.mul_lt_mul_of_pos_right hbyte (Nat.two_pow_pos _))

/-- The staged bits stay as they are, and the byte's come after them (R151). -/
theorem State.stageByte_getLsbD {s : State} (hcnt : s.bitCnt.toNat < 16)
    (hbuf : s.bitBuf.toNat < 2 ^ s.bitCnt.toNat) {k : Nat} (hk : k < s.bitCnt.toNat + 8) :
    s.stageByte.bitBuf.getLsbD k =
      if k < s.bitCnt.toNat then s.bitBuf.getLsbD k else s.byteIn.1.getLsbD (k - s.bitCnt.toNat) := by
  rw [State.stageByte_bitBuf, BitVec.getLsbD_or, BitVec.getLsbD_shiftLeft, BitVec.getLsbD_setWidth]
  split
  · next hlt => simp [hlt]
  · next hge =>
    have hzero : s.bitBuf.getLsbD k = false :=
      Nat.testBit_lt_two_pow (hbuf.trans_le (Nat.pow_le_pow_right (by omega) (by omega)))
    rw [hzero]
    simp [hge, show k < 32 by omega, show k - s.bitCnt.toNat < 32 by omega]

/-- One more pad byte in a counter that stays at 3 (R36). -/
theorem padCnt_succ_toNat {p : BitVec 2} {n : Nat} (h : p.toNat = min n 3) :
    (if p = 3 then 3 else p + 1 : BitVec 2).toNat = min (n + 1) 3 := by
  by_cases hp : p = 3
  · subst hp
    have h3 : (3 : BitVec 2).toNat = 3 := rfl
    rw [if_pos rfl]
    omega
  · have hne : p.toNat ≠ 3 := fun h3 => hp (BitVec.eq_of_toNat_eq h3)
    have h1 : (1 : BitVec 2).toNat = 1 := rfl
    rw [if_neg hp, BitVec.toNat_add, h1]
    omega

/-- `ByteIn` takes the next byte of the source, or counts a pad byte at its end (R152). -/
theorem State.stageByte_position (s : State) :
    (s.inPos < s.srcLen ∧ s.stageByte.inPos = s.inPos + 1 ∧ s.stageByte.pads = s.pads) ∨
    (s.srcLen ≤ s.inPos ∧ s.stageByte.inPos = s.inPos ∧ s.stageByte.pads = s.pads + 1) := by
  unfold State.stageByte State.byteIn
  split
  · next h => exact .inl ⟨h, rfl, rfl⟩
  · next h => exact .inr ⟨Nat.le_of_not_lt h, rfl, rfl⟩

theorem State.stageByte_padCnt_toNat {s : State} (h : s.padCnt.toNat = min s.pads 3) :
    s.stageByte.padCnt.toNat = min s.stageByte.pads 3 := by
  unfold State.stageByte State.byteIn
  split
  · exact h
  · exact padCnt_succ_toNat h

/-- A byte is staged only while fewer than 16 bits are, and keeps the invariant (R151, R160). -/
theorem State.ReaderInv.stageByte {s : State} (h : s.ReaderInv) (hcnt : s.bitCnt.toNat < 16) :
    s.stageByte.ReaderInv := by
  have hcnt' := State.stageByte_bitCnt_toNat hcnt
  have hpos := s.stageByte_position
  have hpads := h.padCnt_eq
  have hpads' := State.stageByte_padCnt_toNat hpads
  have hle := h.inPos_le
  have hend := h.padded_at_end
  have hstaged := h.staged_le
  constructor
  case bitCnt_le => omega
  case bitBuf_lt => exact hcnt' ▸ State.stageByte_bitBuf_toNat_lt h.bitBuf_lt
  case inPos_le => rw [State.stageByte_srcLen]; omega
  case srcLen_lt => simpa using h.srcLen_lt
  case padCnt_eq => exact hpads'
  case padded_at_end => rw [State.stageByte_srcLen]; omega
  case staged_le => omega
  case strict_unread =>
    intro hstrict
    have hunread := h.strict_unread (State.stageByte_strict s ▸ hstrict)
    omega
  case staged_eq =>
    intro hbusy k hk
    rw [hcnt'] at hk
    rw [State.stageByte_getLsbD hcnt h.bitBuf_lt hk, State.stageByte_cur hcnt, State.sourceBit,
      State.stageByte_srcLen, State.stageByte_src, ← State.sourceBit]
    split
    · next hlt => exact h.staged_eq (by simpa [State.busy, State.atRest] using hbusy) k hlt
    · next hge =>
      rw [h.byteIn_getLsbD (by omega), State.cur]
      congr 1
      omega

theorem State.ReaderInv.stageLoop {n : Nat} (hn : n ≤ 16) (k : Nat) {s : State} (h : s.ReaderInv) :
    (State.stageLoop n k s).ReaderInv ∧ (State.stageLoop n k s).cur = s.cur := by
  induction k generalizing s with
  | zero => exact ⟨h, rfl⟩
  | succ k ih =>
    unfold State.stageLoop
    split
    · next hlt =>
      obtain ⟨hinv, hcur⟩ := ih (h.stageByte (by omega))
      exact ⟨hinv, hcur.trans (State.stageByte_cur (by omega))⟩
    · exact ⟨h, rfl⟩

/-- `NeedBits` keeps the invariant and the cursor (R151). -/
theorem State.ReaderInv.staged {n : Nat} (hn : n ≤ 16) {s : State} (h : s.ReaderInv) :
    (s.staged n).ReaderInv ∧ (s.staged n).cur = s.cur := h.stageLoop hn 2

theorem State.shiftOut_bitCnt_toNat {n : Nat} {s : State} (hn : n ≤ s.bitCnt.toNat) :
    (s.shiftOut n).bitCnt.toNat = s.bitCnt.toNat - n := by
  have hlt := s.bitCnt.isLt
  have hn' : (BitVec.ofNat 5 n).toNat = n := by rw [BitVec.toNat_ofNat]; omega
  rw [State.shiftOut_bitCnt, BitVec.toNat_sub, hn']
  omega

/-- `DropBits` moves the cursor past the dropped bits (R154, R160). -/
theorem State.ReaderInv.shiftOut_cur {n : Nat} {s : State} (h : s.ReaderInv) (hn : n ≤ s.bitCnt.toNat) :
    (s.shiftOut n).cur = s.cur + n := by
  have hle := h.staged_le
  rw [State.cur, State.shiftOut_bitCnt_toNat hn, State.shiftOut_inPos, State.shiftOut_pads, State.cur]
  omega

/-- `DropBits` that does not raise keeps the invariant (R154, R155). -/
theorem State.ReaderInv.shiftOut {n : Nat} {s : State} (h : s.ReaderInv) (hn : n ≤ s.bitCnt.toNat)
    (ht : (s.shiftOut n).truncated = false) : (s.shiftOut n).ReaderInv := by
  have hcnt := State.shiftOut_bitCnt_toNat hn
  constructor
  case bitCnt_le => have := h.bitCnt_le; omega
  case bitBuf_lt =>
    rw [hcnt, State.shiftOut_bitBuf, BitVec.toNat_ushiftRight, Nat.shiftRight_eq_div_pow]
    refine Nat.div_lt_of_lt_mul ?_
    rw [← Nat.pow_add, Nat.add_sub_cancel' hn]
    exact h.bitBuf_lt
  case inPos_le => exact h.inPos_le
  case srcLen_lt => exact h.srcLen_lt
  case padCnt_eq => exact h.padCnt_eq
  case padded_at_end => exact h.padded_at_end
  case staged_le =>
    have := h.staged_le
    rw [hcnt, State.shiftOut_inPos, State.shiftOut_pads]
    omega
  case strict_unread =>
    intro hstrict
    have hs : s.strict = true := hstrict
    simpa [State.truncated, hs] using ht
  case staged_eq =>
    intro hbusy k hk
    rw [hcnt] at hk
    rw [State.shiftOut_bitBuf, BitVec.getLsbD_ushiftRight, h.shiftOut_cur hn, Nat.add_assoc]
    exact h.staged_eq hbusy (n + k) (by omega)

/-- Reads keep the bit reader's invariant and move the cursor past the bits read (R160 (d)). -/
theorem Reads.readerInv {s u : State} {k : Nat} (h : Reads s k u) (hs : s.ReaderInv) :
    u.ReaderInv ∧ u.cur = s.cur + k := by
  induction h with
  | nothing => exact ⟨hs, rfl⟩
  | @field k m n u _ hm hn ht ih =>
    obtain ⟨hu, hcur⟩ := ih
    obtain ⟨hst, hstcur⟩ := hu.staged hm
    exact ⟨hst.shiftOut hn ht, by rw [State.consumed, hst.shiftOut_cur hn, hstcur, hcur, Nat.add_assoc]⟩

/-- Reads keep the invariant. -/
theorem Reads.inv {s u : State} {k : Nat} (h : Reads s k u) (hs : s.Inv) : u.Inv := by
  have hu := (h.readerInv hs.reader).1
  obtain ⟨r, rfl⟩ := h.exists_reader
  exact { hs with reader := hu, window := { hs.window with } }

/-! ### The window and the output -/

theorem State.WindowInv.histLen_produce {s : State} (h : s.WindowInv) (b : Byte) :
    ((s.winPut b).outPush b).histLen.toNat = min (s.out.length + 1) 32768 := by
  have hh := h.histLen_eq
  simp only [State.outPush_histLen, State.winPut_histLen, BitVec.toNat_ofNat]
  omega

/-- A produced byte keeps the window the last `HIST_LEN` bytes of the output (R370, R376). -/
theorem State.WindowInv.produce {s : State} (h : s.WindowInv) (b : Byte) :
    ((s.winPut b).outPush b).WindowInv := by
  have hpos := h.wpos_eq
  have hlen : (s.out ++ [b]).length = s.out.length + 1 := by simp
  constructor
  case win_wf => exact Memory.write_wf h.win_wf _ b
  case win_below => exact Memory.write_below h.win_below s.wpos.isLt b
  case wpos_eq =>
    have h1 : (1 : BitVec 15).toNat = 1 := rfl
    simp only [State.outPush_wpos, State.winPut_wpos, State.outPush_out, State.winPut_out, BitVec.toNat_add, h1, hlen]
    omega
  case histLen_eq => rw [h.histLen_produce, State.outPush_out, State.winPut_out, hlen]
  case outCount_eq =>
    simp only [State.outPush_outCount, State.winPut_outCount, State.winPut_cfg, State.outPush_cfg, State.outPush_out,
      State.winPut_out, hlen, h.outCount_eq, Nat.mod_add_mod]
  case history =>
    intro k hk
    rw [h.histLen_produce] at hk
    simp only [State.outPush_win, State.winPut_win, State.outPush_out, State.winPut_out, hlen]
    cases k with
    | zero =>
      have haddr : (s.out.length + 1 - 1 - 0) % 32768 = s.wpos.toNat := by omega
      rw [haddr, Memory.read_write_same h.win_wf]
      simp
    | succ k =>
      have hidx : s.out.length + 1 - 1 - (k + 1) = s.out.length - 1 - k := by omega
      have hne : (s.out.length - 1 - k) % 32768 ≠ s.wpos.toNat := by omega
      have hh := h.histLen_eq
      rw [hidx, Memory.read_write_other _ b hne, h.history k (by omega)]
      simp [List.getD_eq_getElem?_getD, List.getElem?_append_left (show s.out.length - 1 - k < s.out.length by omega)]

/-! ### What the writes keep -/

/-- The registers and the memory that `Produce` writes, and the width of its counter. -/
def State.output (s : State) : Config × List Host.Cell × BitVec 15 × BitVec 16 × Nat × List Byte :=
  (s.cfg, s.win, s.wpos, s.histLen, s.outCount, s.out)

/-- The invariant of the window speaks of the output alone. -/
theorem State.WindowInv.congr {s t : State} (h : s.WindowInv) (ho : t.output = s.output) : t.WindowInv := by
  cases s
  cases t
  cases ho
  exact { h with }

theorem Effect.reader {o : Option Instr} {f : Fsm} {u t : State} (h : Effect o f u t) : t.reader = u.reader := by
  cases h <;> rfl

theorem Effect.callInputs {o : Option Instr} {f : Fsm} {u t : State} (h : Effect o f u t) :
    t.callInputs = u.callInputs := by
  cases h <;> rfl

theorem Effect.errCode {o : Option Instr} {f : Fsm} {u t : State} (h : Effect o f u t) : t.errCode = u.errCode := by
  cases h <;> rfl

/-- The writes of a step leave the output as it is or add one byte to it. -/
theorem Effect.output {o : Option Instr} {f : Fsm} {u t : State} (h : Effect o f u t) :
    t.output = u.output ∨ ∃ b, t.output = ((u.winPut b).outPush b).output := by
  cases h
  case storedByte b _ _ => exact .inr ⟨b, rfl⟩
  case storedLast b _ _ => exact .inr ⟨b, rfl⟩
  case lit b _ => exact .inr ⟨b, rfl⟩
  case copy => exact .inr ⟨u.winBack u.mdist, rfl⟩
  all_goals exact .inl rfl

theorem Effect.windowInv {o : Option Instr} {f : Fsm} {u t : State} (h : Effect o f u t) (hu : u.WindowInv) :
    t.WindowInv := by
  obtain ho | ⟨b, ho⟩ := h.output
  · exact hu.congr ho
  · exact (hu.produce b).congr ho

theorem Effect.btype_ne {o : Option Instr} {f : Fsm} {u t : State} (h : Effect o f u t) (hu : u.btype ≠ 3) :
    t.btype ≠ 3 := by
  cases h with
  | header hi => obtain ⟨-, rfl, -⟩ | ⟨-, rfl, -⟩ | ⟨-, rfl, -⟩ := hi <;> simp
  | _ => exact hu

/-- A step advances in a state of a running call alone. -/
theorem Effect.active {o : Option Instr} {f : Fsm} {u t : State} (h : Effect o f u t) :
    f ≠ .idle ∧ f ≠ .done ∧ f ≠ .error := by
  cases h <;> decide

/-! ### The values of the extra bits -/

theorem extraBits_length_of_lengthSymbol {i : Instr} {sym : Nat} (hi : i.litLenSymbol = some sym) (h257 : 257 ≤ sym) :
    i.extraBits.length = lextOf sym := by
  cases i
  case lit b => cases hi; omega
  all_goals cases hi
  all_goals rfl

/-- A length is 3 to 258, whatever its extra bits are (43_symbols.md rule R272). -/
theorem length_bounds {i : Instr} {sym : Nat} (hi : i.litLenSymbol = some sym) (h257 : 257 ≤ sym) (h285 : sym ≤ 285) :
    3 ≤ lbaseOf sym + extraValue i ∧ lbaseOf sym + extraValue i ≤ 258 := by
  have htable : ∀ k < 29, 3 ≤ lbaseOf (257 + k) ∧ lbaseOf (257 + k) + 2 ^ lextOf (257 + k) ≤ 259 := by decide
  obtain ⟨k, rfl⟩ := Nat.exists_eq_add_of_le h257
  have hk := htable k (by omega)
  have hx : extraValue i < 2 ^ lextOf (257 + k) := extraBits_length_of_lengthSymbol hi h257 ▸ bitsVal_lt i.extraBits
  omega

theorem dbaseOf_pos {d : Nat} (h : d ≤ 29) : 1 ≤ dbaseOf d := by
  have htable : ∀ d < 30, 1 ≤ dbaseOf d := by decide
  exact htable d (by omega)

/-! ### The tables -/

/-- A table that passes `BuildDyn` is not over-subscribed (41_huffman.md rule R188). -/
theorem buildStatus_ne_of_buildDyn {reject : Bool} {L : List Nat} {maxb : Nat} (h : buildDyn reject L maxb = none) :
    buildStatus L maxb ≠ .overSubscribed := by
  intro hs
  simp [buildDyn, hs] at h

theorem codeLen_natLens_ofFn {n w : Nat} (g : Fin n → BitVec w) {j : Nat} (hj : j < n) :
    codeLen (natLens (Vector.ofFn g)) j = (g ⟨j, hj⟩).toNat := by
  simp [codeLen, natLens, List.getD_eq_getElem?_getD, hj]

theorem codeLen_litLenFromLens_of_le {s : State} {j : Nat} (hj : j < 288) (h : s.nlit.toNat ≤ j) :
    codeLen (natLens s.litLenFromLens) j = 0 := by
  rw [State.litLenFromLens, codeLen_natLens_ofFn _ hj, if_neg (by simpa using h)]
  rfl

theorem codeLen_distLenFromLens_of_le {s : State} {j : Nat} (hj : j < 32) (h : s.ndist.toNat ≤ j) :
    codeLen (natLens s.distLenFromLens) j = 0 := by
  rw [State.distLenFromLens, codeLen_natLens_ofFn _ hj, if_neg (by simpa using h)]
  rfl

theorem State.litTable_of_dynamic {s : State} (h : s.tblSel = false) : s.litTable = natLens s.litLen := by
  simp [State.litTable, h]

theorem State.distTable_of_dynamic {s : State} (h : s.tblSel = false) : s.distTable = natLens s.distLen := by
  simp [State.distTable, h]

/-! ### What the next state finds -/

/-- The FSM state of `t` is one that a step can advance to, and finds what it is entered with. -/
def State.Entered (t : State) : Prop := ∃ g : Fsm, t.fsm = g.code ∧ g ≠ .error ∧ t.StateInv g

theorem State.blockEnd_entered (u : State) : u.blockEnd.Entered := by
  unfold State.Entered
  rw [State.blockEnd_fsm]
  cases u.bfinal
  · exact ⟨.hdr, rfl, by decide, trivial⟩
  · exact ⟨.done, rfl, by decide, trivial⟩

/-- `REM - 1` where it is not 0 (42_block_decoder.md rule R227, 44_sliding_window.md rule R374). -/
theorem rem_sub_one_toNat {r : BitVec 16} (h : 1 ≤ r.toNat) : (r - 1).toNat = r.toNat - 1 := by
  have h1 : (1 : BitVec 16).toNat = 1 := rfl
  have := r.isLt
  rw [BitVec.toNat_sub, h1]
  omega

/-- The writes of a step leave what the next FSM state is entered with. -/
theorem Effect.entered {o : Option Instr} {f : Fsm} {u t : State} (h : Effect o f u t) (hf : u.fsm = f.code)
    (hu : u.StateInv f) (hw : u.WindowInv) : t.Entered := by
  have hzero : (0 : BitVec 9).toNat = 0 := rfl
  have hhist : u.histLen.toNat ≤ 32768 := by have := hw.histLen_eq; omega
  cases h with
  | header hi =>
    obtain ⟨-, -, rfl⟩ | ⟨-, -, rfl⟩ | ⟨-, -, rfl⟩ := hi
    · exact ⟨.storedAlign, rfl, by decide, trivial⟩
    · exact ⟨.fixedSetup, rfl, by decide, trivial⟩
    · exact ⟨.dynHdr, rfl, by decide, trivial⟩
  | storedAlign => exact ⟨.storedLen, rfl, by decide, trivial⟩
  | storedLen => exact ⟨.storedNlen, rfl, by decide, trivial⟩
  | storedEmpty => exact u.blockEnd_entered
  | storedNlen _ h0 => exact ⟨.storedCopy, rfl, by decide, h0⟩
  | storedByte _ h0 => exact ⟨.storedCopy, hf, by decide, h0⟩
  | storedLast => exact State.blockEnd_entered _
  | @dynHdr u hl hd hc hl29 hd29 =>
    have hcl := hc.isLt
    refine ⟨.dynCllen, rfl, by decide, ?_⟩
    simp only [State.StateInv, State.countsLegal, BitVec.toNat_ofNat, hzero]
    omega
  | dynCllen hj =>
    obtain ⟨hcounts, h4, h19, hidx⟩ := hu
    by_cases hlast : u.idx.toNat + 1 = u.nclen.toNat
    · exact ⟨.dynClbuild, if_pos hlast, by decide, hcounts⟩
    · refine ⟨.dynCllen, if_neg hlast, by decide, hcounts, h4, h19, ?_⟩
      simp only [BitVec.toNat_ofNat]
      omega
  | @codeLengths i u v r hi hr h316 =>
    obtain ⟨hcounts, -, hbuild⟩ := hu
    have hidx : (BitVec.ofNat 9 (u.idx.toNat + r)).toNat = u.idx.toNat + r := by
      rw [BitVec.toNat_ofNat]
      omega
    by_cases hlast : u.idx.toNat + r = u.lensTotal
    · exact ⟨.dynBuild, if_pos hlast, by decide, hcounts, hidx.trans hlast⟩
    · exact ⟨.dynLens, if_neg hlast, by decide, hcounts, hidx.trans_lt (by exact Nat.lt_of_le_of_ne hr hlast), hbuild⟩
  | lit => exact ⟨.sym, hf, by decide, hu⟩
  | eob => exact u.blockEnd_entered
  | @lenSym i u sym hi h257 h285 =>
    refine ⟨.lenExtra, rfl, by decide, hu, ?_⟩
    simp only [BitVec.toNat_ofNat]
    omega
  | @lenExtra i u sym hi h257 h285 hs =>
    obtain ⟨htables, -⟩ := hu
    have hlen := length_bounds hi h257 h285
    refine ⟨.distSym, rfl, by decide, htables, ?_⟩
    simp only [BitVec.toNat_ofNat]
    omega
  | @distSym i u d hi h29 =>
    obtain ⟨htables, h3, h258⟩ := hu
    refine ⟨.distExtra, rfl, by decide, htables, h3, h258, ?_⟩
    simp only [BitVec.toNat_ofNat]
    omega
  | @distExtra i u d hi h29 hs hh =>
    obtain ⟨htables, h3, h258, -⟩ := hu
    have hpos := dbaseOf_pos h29
    refine ⟨.copy, rfl, by decide, htables, ?_⟩
    simp only [BitVec.toNat_ofNat, BitVec.toNat_setWidth]
    omega
  | fixedSetup => exact ⟨.sym, rfl, by decide, fun h => by cases h⟩
  | dynClbuild hb =>
    obtain ⟨h257, h286, h1, h30⟩ := hu
    refine ⟨.dynLens, rfl, by decide, ⟨h257, h286, h1, h30⟩, ?_, buildStatus_ne_of_buildDyn hb⟩
    simp only [State.lensTotal, hzero]
    omega
  | dynBuild hl hd =>
    obtain ⟨⟨-, h286, -, h30⟩, -⟩ := hu
    refine ⟨.sym, rfl, by decide, fun hsel => ?_⟩
    rw [State.litTable_of_dynamic hsel, State.distTable_of_dynamic hsel]
    exact ⟨buildStatus_ne_of_buildDyn hl, buildStatus_ne_of_buildDyn hd,
      codeLen_litLenFromLens_of_le (by omega) h286, codeLen_litLenFromLens_of_le (by omega) (by omega),
      codeLen_distLenFromLens_of_le (by omega) h30, codeLen_distLenFromLens_of_le (by omega) (by omega)⟩
  | copy =>
    obtain ⟨htables, h1, h258, hd1, hdle⟩ := hu
    have hrem := rem_sub_one_toNat h1
    by_cases hlast : u.rem - 1 = 0
    · exact ⟨.sym, if_pos hlast, by decide, htables⟩
    · have hne : (u.rem - 1).toNat ≠ 0 := fun h => hlast (BitVec.eq_of_toNat_eq h)
      refine ⟨.copy, if_neg hlast, by decide, htables, ?_⟩
      simp only [State.outPush_histLen, State.winPut_histLen, State.outPush_mdist, State.winPut_mdist,
        BitVec.toNat_ofNat]
      omega

/-! ### Every step -/

theorem State.Inv.stateInv {s : State} {f : Fsm} (h : s.Inv) (hf : s.fsm = f.code) : s.StateInv f := by
  obtain ⟨g, hg, hsg⟩ := h.state
  rw [hf, Fsm.ofCode_code] at hg
  cases hg
  exact hsg

theorem State.busy_of_active {s : State} {f : Fsm} (hf : s.fsm = f.code) (ha : f ≠ .idle ∧ f ≠ .done ∧ f ≠ .error) :
    s.busy = true := by
  simp [State.busy, State.atRest_code hf, ha]

theorem Effect.inv {o : Option Instr} {f : Fsm} {u t : State} (h : Effect o f u t) (hf : u.fsm = f.code)
    (hu : u.Inv) : t.Inv := by
  have hcall := h.callInputs
  obtain ⟨hidle, hdone, herror⟩ := h.active
  obtain ⟨g, hg, hgerror, hstate⟩ := h.entered hf (hu.stateInv hf) hu.window
  simp only [State.callInputs, Prod.mk.injEq] at hcall
  obtain ⟨hcfg, -, -, -, hsrc⟩ := hcall
  have hne : ∀ {c : Fsm}, c ≠ .error → c.code ≠ Fsm.error.code := fun hc h => hc (Fsm.code_injective h)
  have herr : u.errCode = 0 := by
    by_contra hc
    exact hne herror (hf ▸ hu.error_code.mp hc)
  constructor
  case config => exact hcfg ▸ hu.config
  case reader => exact hu.reader.congr h.reader h.callInputs fun _ => State.busy_of_active hf ⟨hidle, hdone, herror⟩
  case window => exact h.windowInv hu.window
  case src_wf => exact hsrc ▸ hu.src_wf
  case btype_ne => exact h.btype_ne hu.btype_ne
  case error_code =>
    rw [h.errCode, herr, hg]
    exact ⟨fun h0 => absurd rfl h0, fun he => absurd he (hne hgerror)⟩
  case state => exact ⟨g, by rw [hg, Fsm.ofCode_code], hstate⟩

/-- Error entry keeps the invariant (60_exceptions.md rules R452, R457). -/
theorem State.Inv.raise {s : State} (h : s.Inv) (e : Err) : (s.raise e).Inv :=
  { h with
    reader := h.reader.congr rfl rfl fun hb => by cases hb
    window := h.window.congr rfl
    error_code := ⟨fun _ => rfl, fun _ => e.code_ne_zero⟩
    state := ⟨.error, rfl, trivial⟩ }

theorem StepResult.inv {o : Option Instr} {s t : State} (h : StepResult o s t) (hs : s.Inv) : t.Inv := by
  obtain ⟨k, u, f, -, hread, hf, heffect⟩ | ⟨e, rfl⟩ | rfl := h
  · exact heffect.inv hf (hread.inv hs)
  · exact hs.raise e
  · exact hs

/-- Nothing is read and no bit is staged, as reset and START leave the bit reader. -/
theorem State.ReaderInv.of_empty {s : State} (hr : s.reader = ⟨0, 0, 0, 0, 0⟩) (hlen : s.srcLen < 2 ^ s.cfg.srcLenW) :
    s.ReaderInv := by
  simp only [State.reader, Reader.mk.injEq] at hr
  obtain ⟨hpos, hpad, hpads, hbuf, hcnt⟩ := hr
  constructor <;> simp [hpos, hpad, hpads, hbuf, hcnt, hlen]

/-- Nothing is produced, as reset and START leave the output. -/
theorem State.WindowInv.of_empty {s t : State} (h : s.WindowInv)
    (ht : t.output = (s.cfg, s.win, 0, 0, 0, [])) : t.WindowInv := by
  simp only [State.output, Prod.mk.injEq] at ht
  obtain ⟨hcfg, hwin, hpos, hlen, hcount, hout⟩ := ht
  constructor <;> simp [hwin, hpos, hlen, hcount, hout, h.win_wf, h.win_below]

/-- Reset reaches the invariant (70_reset_and_hazards.md rule R490). -/
theorem State.Inv.applyReset {s : State} (h : s.Inv) : s.applyReset.Inv where
  config := h.config
  reader := .of_empty rfl (Nat.two_pow_pos _)
  window := h.window.of_empty rfl
  src_wf := h.src_wf
  btype_ne := by simp
  error_code := ⟨fun h0 => absurd rfl h0, fun he => by cases he⟩
  state := ⟨.idle, rfl, trivial⟩

theorem State.start_entered (s : State) : s.start.Entered := by
  unfold State.Entered
  rw [State.start_fsm]
  split
  · exact ⟨.done, rfl, by decide, trivial⟩
  · exact ⟨.hdr, rfl, by decide, trivial⟩

/-- START reaches the invariant (45_stream_controller.md rule R401). -/
theorem State.Inv.start {s : State} (h : s.Inv) : s.start.Inv := by
  obtain ⟨g, hg, hgerror, hstate⟩ := s.start_entered
  exact
    { config := h.config
      reader := .of_empty rfl (Nat.mod_lt _ (Nat.two_pow_pos _))
      window := h.window.of_empty rfl
      src_wf := h.src_wf
      btype_ne := by simp
      error_code := ⟨fun h0 => absurd rfl h0, fun he => absurd (Fsm.code_injective (hg ▸ he)) hgerror⟩
      state := ⟨g, by rw [hg, Fsm.ofCode_code], hstate⟩ }

/-- Settles O32: reset and START reach the invariant, and a step of the FSM reads, then writes, and either part keeps it. -/
theorem stepKeepsInvariant : Obligations.StepKeepsInvariant := by
  intro s t hs h
  by_cases hown : s.ownStep
  · obtain ⟨o, ho⟩ := step_stepResult hown h
    exact ho.inv hs
  · rcases step_cases s with ⟨-, hr⟩ | ⟨-, -, -, hst⟩ | ⟨hrst, hstart, -⟩
    · cases hr.symm.trans h
      exact hs.applyReset
    · cases hst.symm.trans h
      exact hs.start
    · exact absurd ⟨hrst, hstart⟩ hown

end Sys2Proof.Machine

namespace Sys2Proof.Machine

/-! # Frames, the cursor, reset and the status word -/

/-! ### What an element keeps -/

/-- The tables of the symbol loop and the choice between them. -/
def State.tables (s : State) : Bool × Vector (BitVec 4) 288 × Vector (BitVec 4) 32 := (s.tblSel, s.litLen, s.distLen)

/-- FIXED_SETUP and DYN_BUILD alone write the tables, and neither is an element. -/
theorem Effect.tables {i : Instr} {f : Fsm} {u t : State} (h : Effect (some i) f u t) : t.tables = u.tables := by
  cases h <;> rfl

theorem StepResult.callInputs {o : Option Instr} {s t : State} (h : StepResult o s t) :
    t.callInputs = s.callInputs := by
  obtain ⟨k, u, f, -, hread, -, heffect⟩ | ⟨e, rfl⟩ | rfl := h
  · obtain ⟨r, rfl⟩ := hread.exists_reader
    exact heffect.callInputs
  · rfl
  · rfl

theorem StepResult.tables {i : Instr} {s t : State} (h : StepResult (some i) s t) : t.tables = s.tables := by
  obtain ⟨k, u, f, -, hread, -, heffect⟩ | ⟨e, rfl⟩ | rfl := h
  · obtain ⟨r, rfl⟩ := hread.exists_reader
    exact heffect.tables
  · rfl
  · rfl

/-! ### The cursor -/

/-- An advance moves the cursor past the bits read; a raise and a hold leave it. -/
theorem StepResult.cur {o : Option Instr} {s t : State} (h : StepResult o s t) (hs : s.ReaderInv) :
    s.cur ≤ t.cur ∧ t.cur ≤ s.cur + 16 := by
  obtain ⟨k, u, f, hk, hread, -, heffect⟩ | ⟨e, rfl⟩ | rfl := h
  · have hcur : t.cur = s.cur + k := (State.cur_congr heffect.reader).trans (hread.readerInv hs).2
    omega
  · exact ⟨Nat.le_refl s.cur, Nat.le_add_right s.cur 16⟩
  · exact ⟨Nat.le_refl t.cur, Nat.le_add_right t.cur 16⟩

/-! ### Reset -/

/-- While reset is applied no byte is presented (70_reset_and_hazards.md rule R490). -/
theorem State.outPort_of_rst {s : State} (h : s.pins.rst = true) (hout : s.out = []) : s.outPort = none := by
  have hstep : step s.ready = .next s.ready.applyReset := step_of_rst h
  simp [State.outPort, hstep, hout]

theorem State.applyReset_status (s : State) : s.applyReset.status = 0 := by
  simp [State.status, State.busy, State.atRest, Fsm.code]

/-! ### The status word -/

theorem State.busy_eq (s : State) : s.busy = (s.fsm != 0 && s.fsm != 17 && s.fsm != 18) := by
  simp only [State.busy, State.atRest, Bool.not_or]
  rfl

/-- The bits of the status word from bit 3 on: `ERR_CODE`, then `FSM` (10_state.md rule R60). -/
theorem State.status_getLsbD {s : State} {k : Nat} (h3 : 3 ≤ k) (h32 : k < 32) :
    s.status.getLsbD k = if k < 6 then s.errCode.getLsbD (k - 3) else s.fsm.getLsbD (k - 6) := by
  have hflags : k ≠ 0 ∧ k - 1 ≠ 0 ∧ k - 2 ≠ 0 := by omega
  have hrange : k < 32 ∧ k - 3 < 32 ∧ k - 6 < 32 ∧ ¬k < 3 := by omega
  simp only [State.status, BitVec.getLsbD_or, BitVec.getLsbD_shiftLeft, BitVec.getLsbD_setWidth, BitVec.getLsbD_ofBool]
  split
  · next h6 => simp [hflags, hrange, h6]
  · next h6 =>
    have herr : s.errCode.getLsbD (k - 3) = false := BitVec.getLsbD_of_ge _ _ (by omega)
    simp [hflags, hrange, h6, herr]

/-- Settles O24: what an element can do, then the bit reader's own frame. -/
theorem elementsKeepCallInputsAndTables : Obligations.ElementsKeepCallInputsAndTables := by
  refine ⟨fun i s t h => ?_, fun m n s => State.consumed_eq_withReader m n s⟩
  have hresult := exec_stepResult h
  have hcall := hresult.callInputs
  have htables := hresult.tables
  simp only [State.callInputs, State.tables, Prod.mk.injEq] at hcall htables
  obtain ⟨hcfg, hpins, hstrict, hlen, hsrc⟩ := hcall
  obtain ⟨hsel, hlit, hdist⟩ := htables
  exact ⟨hcfg, hpins, hstrict, hlen, hsel, hlit, hdist, hsrc, fun a => by rw [hsrc]⟩

/-- Settles O43: the reads of a step move the cursor by at most 16 bits, and nothing else moves it. -/
theorem cursorNeverRegresses : Obligations.CursorNeverRegresses := by
  intro s t hs hown h
  obtain ⟨o, ho⟩ := step_stepResult hown h
  exact ho.cur hs.reader

/-- Settles O34: reset is the first case of a step. -/
theorem resetWinsOverEverything : Obligations.ResetWinsOverEverything := by
  intro s hrst
  refine ⟨s.applyReset, step_of_rst hrst, rfl, s.applyReset_status,
    rfl, rfl, rfl, rfl, rfl, rfl, rfl, rfl, rfl, rfl, rfl, rfl, rfl, rfl, rfl, rfl, rfl, rfl, rfl, rfl, rfl, rfl, rfl, ?_⟩
  exact State.outPort_of_rst hrst rfl

/-- Settles O51, bit by bit. -/
theorem statusWordFields : Obligations.StatusWordFields := by
  refine ⟨fun s => ⟨?_, ?_, ?_, ?_, ?_, ?_⟩, rfl⟩
  · rw [← s.busy_eq]
    simp [State.status]
  · simp [State.status, Fsm.code]
  · simp [State.status, Fsm.code]
  all_goals
    refine BitVec.eq_of_getLsbD_eq fun k hk => ?_
    rw [BitVec.getLsbD_extractLsb', State.status_getLsbD (by omega) (by omega)]
  · simp [hk, show 3 + k < 6 by omega]
  · simp [hk, show ¬6 + k < 6 by omega]
  · rw [if_neg (by omega), BitVec.getLsbD_of_ge _ _ (by omega)]
    simp

end Sys2Proof.Machine

/-! # The bits the decoder sees

Staging is unobservable (41_huffman.md rule R191): `State.peek` of a state and of the state with more bytes staged are
the same bits, whatever the buffer holds beyond `BIT_CNT`. -/

namespace Sys2Proof.Machine

/-! ### Fields -/

theorem bitsVal_append (as bs : List Bool) : bitsVal (as ++ bs) = bitsVal as + 2 ^ as.length * bitsVal bs := by
  induction as with
  | nil => simp [bitsVal]
  | cons a as ih =>
    rw [List.cons_append, bitsVal, ih, bitsVal, List.length_cons, Nat.pow_succ]
    ring

/-- A field sees the bits below its width alone. -/
theorem fieldBits_mod (n v : Nat) : fieldBits n (v % 2 ^ n) = fieldBits n v := by
  have h := fieldBits_bitsVal (fieldBits n v)
  rwa [fieldBits_length, bitsVal_fieldBits] at h

/-! ### Staging -/

theorem State.staged_one_of_zero {s : State} (h : s.bitCnt.toNat = 0) : s.staged 1 = s.stageByte := by
  simp [State.staged, State.stageLoop, h]

theorem State.byteIn_shiftOut (n : Nat) (s : State) : (s.shiftOut n).byteIn = (s.byteIn.1, s.byteIn.2.shiftOut n) := by
  unfold State.byteIn
  rw [State.shiftOut_inPos, State.shiftOut_srcLen]
  split <;> rfl

/-- Dropping a bit and staging the next byte may be exchanged. -/
theorem State.stageByte_shiftOut_one {s : State} (h1 : 1 ≤ s.bitCnt.toNat) (h24 : s.bitCnt.toNat < 24) :
    (s.shiftOut 1).stageByte = s.stageByte.shiftOut 1 := by
  have hbuf : s.bitBuf >>> 1 ||| s.byteIn.1.setWidth 32 <<< (s.shiftOut 1).bitCnt.toNat =
      (s.bitBuf ||| s.byteIn.1.setWidth 32 <<< s.bitCnt.toNat) >>> 1 := by
    refine BitVec.eq_of_getLsbD_eq fun k hk => ?_
    rw [State.shiftOut_bitCnt_toNat h1]
    simp only [BitVec.getLsbD_or, BitVec.getLsbD_ushiftRight, BitVec.getLsbD_shiftLeft, BitVec.getLsbD_setWidth]
    by_cases hlt : k < s.bitCnt.toNat - 1
    · simp [hlt, show 1 + k < s.bitCnt.toNat by omega]
    · have hidx : 1 + k - s.bitCnt.toNat = k - (s.bitCnt.toNat - 1) := by omega
      by_cases h31 : 1 + k < 32
      · simp [hidx, h31, hk, hlt, show ¬1 + k < s.bitCnt.toNat by omega]
      · have hzero : s.byteIn.1.getLsbD (k - (s.bitCnt.toNat - 1)) = false := BitVec.getLsbD_of_ge _ _ (by omega)
        simp [h31, hzero]
  have hcnt : s.bitCnt - BitVec.ofNat 5 1 + 8 = s.bitCnt + 8 - BitVec.ofNat 5 1 := by bv_omega
  unfold State.stageByte
  rw [State.byteIn_shiftOut, State.shiftOut_bitBuf, hbuf, State.shiftOut_bitCnt, hcnt]
  rfl

/-- A byte more in the buffer is unobservable. -/
theorem State.peek_stageByte (n : Nat) {s : State} (h24 : s.bitCnt.toNat < 24) : s.stageByte.peek n = s.peek n := by
  induction n generalizing s with
  | zero => rfl
  | succ n ih =>
    have h8 : (8 : BitVec 5).toNat = 8 := rfl
    have hcnt : s.stageByte.bitCnt.toNat = s.bitCnt.toNat + 8 := by
      rw [State.stageByte_bitCnt, BitVec.toNat_add, h8]
      omega
    have hstaged : s.stageByte.staged 1 = s.stageByte := State.staged_of_le (by omega)
    rcases Nat.eq_zero_or_pos s.bitCnt.toNat with h0 | h1
    · rw [State.peek, State.peek, hstaged, State.staged_one_of_zero h0]
    · have hbit : s.stageByte.bitBuf.getLsbD 0 = s.bitBuf.getLsbD 0 := by
        simp [h1]
      have hlt : (s.shiftOut 1).bitCnt.toNat < 24 := by
        rw [State.shiftOut_bitCnt_toNat h1]
        omega
      rw [State.peek, State.peek, hstaged, State.staged_of_le h1, hbit, ← State.stageByte_shiftOut_one h1 h24, ih hlt]

theorem State.peek_stageLoop (n : Nat) {m : Nat} (hm : m ≤ 16) (k : Nat) (s : State) :
    (State.stageLoop m k s).peek n = s.peek n := by
  induction k generalizing s with
  | zero => rfl
  | succ k ih =>
    unfold State.stageLoop
    split
    · next hlt => rw [ih, State.peek_stageByte n (by omega)]
    · rfl

theorem State.peek_staged (n : Nat) {m : Nat} (hm : m ≤ 16) (s : State) : (s.staged m).peek n = s.peek n :=
  s.peek_stageLoop n hm 2

@[simp] theorem State.peek_length (n : Nat) (s : State) : (s.peek n).length = n := by
  induction n generalizing s with
  | zero => rfl
  | succ n ih => rw [State.peek, List.length_cons, ih]

theorem State.shiftOut_shiftOut (a b : Nat) (s : State) : (s.shiftOut a).shiftOut b = s.shiftOut (a + b) := by
  simp only [State.shiftOut, BitVec.shiftRight_add, BitVec.ofNat_add]
  congr 1
  exact (sub_sub _ _ _)

/-- The decoder sees the staged bits first. -/
theorem State.peek_add_of_le {a : Nat} (n : Nat) {s : State} (h : a ≤ s.bitCnt.toNat) :
    s.peek (a + n) = fieldBits a s.bitBuf.toNat ++ (s.shiftOut a).peek n := by
  induction a generalizing s with
  | zero => simp [fieldBits, State.shiftOut]
  | succ a ih =>
    have h' : a ≤ (s.shiftOut 1).bitCnt.toNat := by
      rw [State.shiftOut_bitCnt_toNat (by omega)]
      omega
    have hbit : s.bitBuf.getLsbD 0 = (s.bitBuf.toNat % 2 == 1) := by
      simp [BitVec.getLsbD, Nat.testBit_zero, beq_eq_decide]
    have hhalf : (s.shiftOut 1).bitBuf.toNat = s.bitBuf.toNat / 2 := by
      simp [Nat.shiftRight_eq_div_pow]
    rw [Nat.add_right_comm, State.peek, State.staged_of_le (by omega), ih h', hbit, hhalf, State.shiftOut_shiftOut,
      Nat.add_comm 1 a]
    rfl

/-- What the decoder sees is what `NeedBits(m)` has staged, then what it sees once `a ≤ m` bits are consumed. -/
theorem State.peek_add {a m : Nat} (ha : a ≤ m) (hm : m ≤ 16) (n : Nat) (s : State) :
    s.peek (a + n) = fieldBits a (s.staged m).bitBuf.toNat ++ (s.consumed m a).peek n := by
  rw [← s.peek_staged (a + n) hm]
  exact State.peek_add_of_le n (Nat.le_trans ha (State.le_staged_bitCnt hm s))

theorem State.peek_eq_fieldBits {n m : Nat} (hn : n ≤ m) (hm : m ≤ 16) (s : State) :
    s.peek n = fieldBits n (s.staged m).bitBuf.toNat := by
  simpa [State.peek] using s.peek_add hn hm 0

/-- The bits seen after `a` bits are consumed are those seen before, without the first `a`. -/
theorem State.peek_append {a m : Nat} (ha : a ≤ m) (hm : m ≤ 16) (n : Nat) (s : State) :
    s.peek (a + n) = s.peek a ++ (s.consumed m a).peek n := by
  rw [s.peek_add ha hm, ← s.peek_eq_fieldBits ha hm]

theorem State.take_peek {a n : Nat} (h : a ≤ n) (s : State) : (s.peek n).take a = s.peek a := by
  induction a generalizing n s with
  | zero => simp [State.peek]
  | succ a ih =>
    obtain ⟨n, rfl⟩ : ∃ k, n = k + 1 := ⟨n - 1, by omega⟩
    rw [State.peek, State.peek, List.take_succ_cons, ih (by omega)]

theorem State.drop_peek {a m n : Nat} (ha : a ≤ m) (hm : m ≤ 16) (s : State) :
    (s.peek (a + n)).drop a = (s.consumed m a).peek n := by
  rw [s.peek_append ha hm]
  exact List.drop_left' (s.peek_length a)

end Sys2Proof.Machine

namespace Sys2Proof.Machine

/-! ### ReadBits -/

/-- `ReadBits(n)` gives the next `n` bits the decoder sees (40_bit_reader.md rules R153, R156). -/
theorem readBits_eq_peek {n : Nat} (hn : n ≤ 16) (s : State) :
    readBits n s =
      if (s.consumed n n).truncated then .error (.raise .truncatedInput)
      else .ok (bitsVal (s.peek n), s.consumed n n) := by
  rw [readBits_eq hn, s.peek_eq_fieldBits (Nat.le_refl n) hn, bitsVal_fieldBits]

/-- `NeedBits(n)` pulls at most two bytes (R151). -/
theorem State.staged_pulled_le (n : Nat) (s : State) :
    (s.staged n).inPos + (s.staged n).pads ≤ s.inPos + s.pads + 2 := by
  have hbyte := fun u : State => u.stageByte_position
  have h1 := hbyte s
  have h2 := hbyte s.stageByte
  simp only [State.staged, State.stageLoop]
  split
  · split <;> omega
  · omega

/-- The state in lenient mode: no read of it is truncated. -/
def State.lenient (s : State) : State := { s with strict := false }

theorem State.stageByte_lenient (s : State) : s.lenient.stageByte = s.stageByte.lenient := by
  unfold State.stageByte State.byteIn
  rw [show s.lenient.inPos = s.inPos from rfl, show s.lenient.srcLen = s.srcLen from rfl]
  split <;> rfl

theorem State.stageLoop_lenient (n k : Nat) (s : State) :
    State.stageLoop n k s.lenient = (State.stageLoop n k s).lenient := by
  induction k generalizing s with
  | zero => rfl
  | succ k ih =>
    unfold State.stageLoop
    rw [State.stageByte_lenient, ih]
    exact (apply_ite State.lenient _ _ _).symm

/-- The decoder's read-ahead does not depend on `STRICT`. -/
theorem State.peek_lenient (n : Nat) (s : State) : s.lenient.peek n = s.peek n := by
  induction n generalizing s with
  | zero => rfl
  | succ n ih =>
    have hstaged : s.lenient.staged 1 = (s.staged 1).lenient := s.stageLoop_lenient 1 2
    rw [State.peek, State.peek, hstaged]
    exact congrArg _ (ih ((s.staged 1).shiftOut 1))

theorem State.ReaderInv.lenient {s : State} (h : s.ReaderInv) : s.lenient.ReaderInv :=
  { h with strict_unread := fun hs => by cases hs }

/-- During a call the decoder sees the source's bits from the cursor on (20_memory.md rule R70, 10_state.md rule
R38). -/
theorem State.ReaderInv.peek_eq {s : State} (h : s.ReaderInv) (hbusy : s.busy = true)
    (hl : s.strict = false) (n : Nat) :
    s.peek n = (List.range n).map fun k => s.sourceBit (s.cur + k) := by
  induction n generalizing s with
  | zero => rfl
  | succ n ih =>
    obtain ⟨hst, hcur⟩ := h.staged (show 1 ≤ 16 by omega)
    have h1 := State.le_staged_bitCnt (show 1 ≤ 16 by omega) s
    have hrest := hst.shiftOut h1 (by simp [State.truncated, hl])
    have hhead := hst.staged_eq (by simpa [State.busy, State.atRest] using hbusy) 0 h1
    rw [State.peek, ih hrest (by simpa [State.busy, State.atRest] using hbusy) (by simpa using hl), hhead,
      hst.shiftOut_cur h1, hcur, List.range_succ_eq_map]
    simp [State.sourceBit, Nat.add_assoc, Nat.add_comm]

/-- TruncCheck raises where the cursor has passed the end of the source (40_bit_reader.md rule R155). -/
theorem State.ReaderInv.shiftOut_truncated {n : Nat} {s : State} (h : s.ReaderInv) (hn : n ≤ s.bitCnt.toNat) :
    (s.shiftOut n).truncated = (s.strict && decide (8 * s.srcLen < s.cur + n)) := by
  have hcnt := h.bitCnt_le
  have hpos := h.inPos_le
  have hpads := h.padCnt_eq
  have hend := h.padded_at_end
  have hle := h.staged_le
  have hiff : s.bitCnt.toNat - n < 8 * s.padCnt.toNat ↔ 8 * s.srcLen < s.cur + n := by
    unfold State.cur
    omega
  rw [State.truncated, State.shiftOut_bitCnt_toNat hn, State.shiftOut_strict, State.shiftOut_padCnt,
    decide_eq_decide.mpr hiff]

/-- Settles O57: staging is unobservable, and the staged bits are the source's. -/
theorem readBitsReadsTheNextBits : Obligations.ReadBitsReadsTheNextBits := by
  refine ⟨fun s n hn => ⟨readBits_eq_peek hn s, State.le_staged_bitCnt hn s, State.staged_bitCnt_le hn s,
    s.staged_pulled_le n⟩, fun s hs hbusy => ⟨fun n => ?_, fun n hn => ?_⟩⟩
  · rw [← s.peek_lenient n]
    exact hs.reader.lenient.peek_eq hbusy rfl n
  · obtain ⟨hst, hcur⟩ := hs.reader.staged hn
    have hle := State.le_staged_bitCnt hn s
    rw [State.consumed, hst.shiftOut_cur hle, hst.shiftOut_truncated hle, hcur, State.staged_strict,
      State.staged_srcLen]
    exact ⟨rfl, rfl⟩

end Sys2Proof.Machine

namespace Sys2Proof.Machine

/-! # The output -/

/-- `t` is `s` in the window and the output, or holds one byte more, which the host was ready for. -/
def AtMostOneByte (s t : State) : Prop :=
  t.output = s.output ∨ ∃ b, s.pins.outReady = true ∧ t.output = ((s.winPut b).outPush b).output

theorem Effect.atMostOneByte {o : Option Instr} {f : Fsm} {u t : State} (h : Effect o f u t) : AtMostOneByte u t := by
  cases h
  case storedByte b ho _ => exact .inr ⟨b, ho, rfl⟩
  case storedLast b ho _ => exact .inr ⟨b, ho, rfl⟩
  case lit b ho => exact .inr ⟨b, ho, rfl⟩
  case copy ho => exact .inr ⟨u.winBack u.mdist, ho, rfl⟩
  all_goals exact .inl rfl

theorem StepResult.atMostOneByte {o : Option Instr} {s t : State} (h : StepResult o s t) : AtMostOneByte s t := by
  obtain ⟨k, u, f, -, hread, -, heffect⟩ | ⟨e, rfl⟩ | rfl := h
  · obtain ⟨r, rfl⟩ := hread.exists_reader
    exact heffect.atMostOneByte
  · exact .inl rfl
  · exact .inl rfl

/-- Settles O41: of the writes of a step only `Produce` reaches the window and the output, and it is done once. -/
theorem stepProducesAtMostOneByte : Obligations.StepProducesAtMostOneByte := by
  intro s t hown h
  obtain ⟨o, ho⟩ := step_stepResult hown h
  obtain hkeep | ⟨b, hready, hput⟩ := ho.atMostOneByte
  · simp only [State.output, Prod.mk.injEq] at hkeep
    obtain ⟨-, hwin, hwpos, hhist, hcount, hout⟩ := hkeep
    exact .inl ⟨hout, hcount, hwin, hwpos, hhist⟩
  · simp only [State.output, Prod.mk.injEq] at hput
    obtain ⟨-, hwin, hwpos, hhist, hcount, hout⟩ := hput
    refine .inr ⟨b, hready, hout, hcount, hwin, ?_, ?_⟩
    · rw [hwpos]
      exact BitVec.toNat_add s.wpos 1
    · rw [hhist, State.outPush_histLen, State.winPut_histLen, BitVec.toNat_ofNat, Nat.mod_eq_of_lt (by omega)]

end Sys2Proof.Machine

namespace Sys2Proof.Machine

/-! # The step of each FSM state as its rule

`step` decodes an element from bits read ahead and then runs the element's meaning, which reads them again.
`stepOf_eq_rule` says that this is the rule of the FSM state as the spec writes it, whose reads are `readBits` and
`readCode` alone: nothing of the read-ahead is left. -/

/-! ### Decoding a symbol -/

theorem symbolAt_eq_some {xs : List Nat} {l next c s t : Nat} (h : symbolAt xs l next c s = some t) :
    ∃ k, t = s + k ∧ xs[k]? = some l := by
  induction xs generalizing next s with
  | nil => cases h
  | cons x xs ih =>
    have hrest : ∀ {n}, symbolAt xs l n c (s + 1) = some t → ∃ k, t = s + k ∧ (x :: xs)[k]? = some l := fun h => by
      obtain ⟨k, rfl, hk⟩ := ih h
      exact ⟨k + 1, by omega, hk⟩
    unfold symbolAt at h
    split at h
    · next hx =>
      split at h
      · cases h
        exact ⟨0, rfl, by simp [hx]⟩
      · exact hrest h
    · exact hrest h

theorem matchCode_eq_some {L : List Nat} {bs : List Bool} {l c next s l' : Nat}
    (h : matchCode L bs l c next = some (s, l')) : L[s]? = some l' ∧ l < l' ∧ l' ≤ l + bs.length := by
  induction bs generalizing l c next with
  | nil => cases h
  | cons b bs ih =>
    unfold matchCode at h
    rw [List.length_cons]
    split at h
    · next t ht =>
      obtain ⟨k, hk, hL⟩ := symbolAt_eq_some ht
      cases h
      rw [hk, Nat.zero_add]
      exact ⟨hL, by omega, by omega⟩
    · obtain ⟨hL, h1, h2⟩ := ih h
      exact ⟨hL, by omega, by omega⟩

/-- A decoded symbol is one of the table's, and the bits of its code are as many as the table says (R189). -/
theorem decodeSym_eq_some {L : List Nat} {maxb : Nat} {bits : List Bool} {s l : Nat}
    (h : decodeSym L maxb bits = some (s, l)) : codeLen L s = l ∧ s < L.length ∧ 1 ≤ l ∧ l ≤ maxb := by
  obtain ⟨hL, h1, h2⟩ := matchCode_eq_some h
  rw [List.length_take] at h2
  have hs : s < L.length := (List.getElem?_eq_some_iff.mp hL).1
  exact ⟨by simp [codeLen, List.getD_eq_getElem?_getD, hL], hs, by omega, by omega⟩

theorem decodeSym_peek (L : List Nat) {maxb n : Nat} (h : maxb ≤ n) (s : State) :
    decodeSym L maxb (s.peek n) = decodeSym L maxb (s.peek maxb) := by
  rw [decodeSym, decodeSym, s.take_peek h, s.take_peek (Nat.le_refl maxb)]

/-! ### Reads as parts of a step -/

/-- Two continuations that agree on the result. -/
theorem bind_congr_ok {α β : Type} {x : Except Stop α} {k k' : α → Except Stop β}
    (h : ∀ a, x = .ok a → k a = k' a) : (x >>= k) = (x >>= k') := by
  cases x with
  | ok a => exact h a rfl
  | error e => rfl

theorem readBits_bind {α : Type} {n : Nat} (hn : n ≤ 16) (s : State) (k : Nat × State → Except Stop α) :
    (readBits n s >>= k) = (consume n n s >>= fun u => k (bitsVal (s.peek n), u)) := by
  rw [readBits_eq_peek hn, consume_eq hn (Nat.le_refl n)]
  split <;> rfl

/-- The bits seen in `readCode` are those staged. -/
theorem readCode_eq {L : List Nat} {maxb : Nat} (hm : maxb ≤ 16) (s : State) :
    readCode L maxb s =
      (decodeSym L maxb (s.peek maxb)).elim (.error (.raise .unsupportedSymbol)) fun q =>
        dropBits q.2 (s.staged maxb) >>= fun u => .ok (q.1, u) := by
  have hle := State.le_staged_bitCnt hm s
  rw [readCode, needBits_of_le hm, ok_bind, getBits_of_le hle, ok_bind, fieldBits_mod,
    ← s.peek_eq_fieldBits (Nat.le_refl maxb) hm]
  cases decodeSym L maxb (s.peek maxb) <;> rfl

theorem readCode_of_none {L : List Nat} {maxb : Nat} (hm : maxb ≤ 16) {s : State}
    (h : decodeSym L maxb (s.peek maxb) = none) : readCode L maxb s = .error (.raise .unsupportedSymbol) := by
  rw [readCode_eq hm, h]
  rfl

/-- A symbol that is found has a code, which is consumed (41_huffman.md rule R189). -/
theorem readCode_bind_of_some {α : Type} {L : List Nat} {maxb sym l : Nat} (hm : maxb ≤ 16) {s : State}
    (h : decodeSym L maxb (s.peek maxb) = some (sym, l)) (k : Nat × State → Except Stop α) :
    (readCode L maxb s >>= k) = (consumeCode L maxb sym s >>= fun u => k (sym, u)) := by
  obtain ⟨hlen, -, h1, -⟩ := decodeSym_eq_some h
  have hcode : consumeCode L maxb sym s = dropBits l (s.staged maxb) := by
    rw [consumeCode, needBits_of_le hm, ok_bind, hlen, if_neg (by omega)]
  rw [readCode_eq hm, h, hcode, Option.elim_some, bind_assoc]
  rfl

/-! ### The rules -/

/-- The rule of each FSM state, with its reads in order (42_block_decoder.md rules R220 to R241, 43_symbols.md rules
R270 to R274, 44_sliding_window.md rule R374); IDLE, DONE and ERROR keep all state (45_stream_controller.md rule R403). -/
def ruleOf : Fsm → State → Except Stop State
  | .hdr, s => do
    let (f, u) ← readBits 1 s
    let (t, u) ← readBits 2 u
    if t = 3 then throw (.raise .invalidBlockType)
    else
      pure { u with
        bfinal := f == 1
        btype := BitVec.ofNat 2 t
        fsm := (if t = 0 then Fsm.storedAlign else if t = 1 then Fsm.fixedSetup else Fsm.dynHdr).code }
  | .storedAlign, s => do
    let u ← alignToByte s
    pure (u.goto .storedLen)
  | .storedLen, s => do
    let (v, u) ← readBits 16 s
    pure { u with storedLen := BitVec.ofNat 16 v, fsm := Fsm.storedNlen.code }
  | .storedNlen, s => do
    let (v, u) ← readBits 16 s
    if u.storedLen ≠ ~~~BitVec.ofNat 16 v then throw (.raise .invalidStoredBlockChecksum)
    else if u.storedLen = 0 then pure u.blockEnd
    else pure { u with rem := u.storedLen, fsm := Fsm.storedCopy.code }
  | .storedCopy, s => do
    let (v, u) ← readBits 8 s
    let p ← produce (BitVec.ofNat 8 v) u
    let q := { p with rem := p.rem - 1 }
    pure (if p.rem - 1 = 0 then q.blockEnd else q)
  | .dynHdr, s => do
    let (hl, u) ← readBits 5 s
    let (hd, u) ← readBits 5 u
    let (hc, u) ← readBits 4 u
    if 29 < hl ∨ 29 < hd then throw (.raise .unsupportedSymbol)
    else
      pure { u with
        nlit := BitVec.ofNat 9 (hl + 257)
        ndist := BitVec.ofNat 6 (hd + 1)
        nclen := BitVec.ofNat 5 (hc + 4)
        clLen := Vector.replicate 19 0
        idx := 0
        fsm := Fsm.dynCllen.code }
  | .dynCllen, s => do
    let (v, u) ← readBits 3 s
    if 19 ≤ u.idx.toNat then throw (.fault .tableIndex)
    else
      pure { u with
        clLen := u.clLen.setIfInBounds (perm.getD u.idx.toNat 0) (BitVec.ofNat 3 v)
        idx := BitVec.ofNat 9 (u.idx.toNat + 1)
        fsm := if u.idx.toNat + 1 = u.nclen.toNat then Fsm.dynClbuild.code else Fsm.dynCllen.code }
  | .dynLens, s => do
    let (sym, u) ← readCode s.clTable 7 s
    if sym ≤ 15 then putLengths (BitVec.ofNat 4 sym) 1 u
    else if sym = 16 then
      if u.idx = 0 then throw (.raise .unsupportedSymbol)
      else
        let (x, w) ← readBits 2 u
        putLengths (w.lensAt (w.idx.toNat - 1)) (3 + x) w
    else if sym = 17 then
      let (x, w) ← readBits 3 u
      putLengths 0 (3 + x) w
    else
      let (x, w) ← readBits 7 u
      putLengths 0 (11 + x) w
  | .sym, s => do
    let (sym, u) ← readCode s.litTable 15 s
    if sym ≤ 255 then produce (BitVec.ofNat 8 sym) u
    else if sym = 256 then pure u.blockEnd
    else if sym ≤ 285 then pure { u with lsym := BitVec.ofNat 9 sym, fsm := Fsm.lenExtra.code }
    else throw (.raise .unsupportedSymbol)
  | .lenExtra, s =>
    if 257 ≤ s.lsym.toNat ∧ s.lsym.toNat ≤ 285 then do
      let (x, u) ← readBits (lextOf s.lsym.toNat) s
      pure { u with mlen := BitVec.ofNat 9 (lbaseOf u.lsym.toNat + x), fsm := Fsm.distSym.code }
    else throw (.fault .noSuchSymbol)
  | .distSym, s => do
    let (d, u) ← readCode s.distTable 15 s
    if 30 ≤ d then throw (.raise .unsupportedSymbol)
    else pure { u with dsym := BitVec.ofNat 5 d, fsm := Fsm.distExtra.code }
  | .distExtra, s =>
    if s.dsym.toNat ≤ 29 then do
      let (x, u) ← readBits (dextOf s.dsym.toNat) s
      if u.histLen.toNat < dbaseOf u.dsym.toNat + x then throw (.raise .invalidBackReference)
      else
        pure { u with
          mdist := BitVec.ofNat 16 (dbaseOf u.dsym.toNat + x)
          rem := u.mlen.setWidth 16
          fsm := Fsm.copy.code }
    else throw (.fault .noSuchSymbol)
  | .fixedSetup, s => pure { s with tblSel := true, fsm := Fsm.sym.code }
  | .dynClbuild, s => do
    checkTable s.cfg.rejectIncomplete s.clTable 7
    pure { s with idx := 0, fsm := Fsm.dynLens.code }
  | .dynBuild, s =>
    if 316 < s.lensTotal then throw (.fault .tableIndex)
    else do
      checkTable s.cfg.rejectIncomplete (natLens s.litLenFromLens) 15
      checkTable s.cfg.rejectIncomplete (natLens s.distLenFromLens) 15
      pure { s with
        litLen := s.litLenFromLens, distLen := s.distLenFromLens, tblSel := false, fsm := Fsm.sym.code }
  | .copy, s => do
    let p ← produce (s.winBack s.mdist) s
    pure { p with rem := p.rem - 1, fsm := if p.rem - 1 = 0 then Fsm.sym.code else Fsm.copy.code }
  | .idle, s => pure s
  | .done, s => pure s
  | .error, s => pure s

end Sys2Proof.Machine

namespace Sys2Proof.Machine

/-! ### From the decoded element to the rule -/

theorem runElement_of_ok {c : Ctx} {s : State} {i : Instr} {rest : List Bool} (h : s.fetch c = .ok (i, rest)) :
    runElement c s = exec i s := by
  simp only [runElement, h]

theorem takeField_of_le {n : Nat} {bits : List Bool} (h : n ≤ bits.length) :
    takeField n bits = some (bitsVal (bits.take n), bits.drop n) := if_pos h

theorem takeField_peek {n m : Nat} (h : n ≤ m) (s : State) :
    takeField n (s.peek m) = some (bitsVal (s.peek n), (s.peek m).drop n) := by
  rw [takeField_of_le (by simpa using h), s.take_peek h]

/-- An element that is one field of at most 16 bits. -/
theorem runElement_field {c : Ctx} {n : Nat} {mk : BitVec n → Instr} (hn : n ≤ 16) (s : State)
    (hc : decode c (s.peek 28) = orError .outOfBits (withField n mk (s.peek 28))) :
    runElement c s = exec (mk (BitVec.ofNat n (bitsVal (s.peek n)))) s := by
  refine runElement_of_ok (rest := (s.peek 28).drop n) ?_
  rw [State.fetch, hc, withField, takeField_peek (by omega)]
  rfl

theorem runElement_hdr {s : State} (hf : s.fsm = Fsm.hdr.code) : runElement .hdr s = finish s (ruleOf .hdr s) := by
  have hrun : runElement .hdr s = exec (headerOf (bitsVal (s.peek 3))) s := by
    refine runElement_of_ok (rest := (s.peek 28).drop 3) ?_
    rw [State.fetch, decode, takeField_peek (by omega)]
    rfl
  have hrule : ruleOf .hdr s = (readHeader s >>= fun u =>
      if bitsVal ((s.consumed 1 1).peek 2) = 3 then throw (.raise .invalidBlockType)
      else
        pure { u with
          bfinal := bitsVal (s.peek 1) == 1
          btype := BitVec.ofNat 2 (bitsVal ((s.consumed 1 1).peek 2))
          fsm := (if bitsVal ((s.consumed 1 1).peek 2) = 0 then Fsm.storedAlign
            else if bitsVal ((s.consumed 1 1).peek 2) = 1 then Fsm.fixedSetup else Fsm.dynHdr).code }) := by
    rw [ruleOf, readBits_bind (by omega), readHeader, bind_assoc]
    refine bind_congr_ok fun u hu => ?_
    obtain ⟨rfl, -⟩ := consume_eq_ok (by omega) (by omega) hu
    dsimp only
    rw [readBits_bind (by omega)]
  have hvalue : bitsVal (s.peek 3) = bitsVal (s.peek 1) + 2 * bitsVal ((s.consumed 1 1).peek 2) := by
    rw [s.peek_append (a := 1) (m := 1) (by omega) (by omega) 2, bitsVal_append, State.peek_length,
      Nat.pow_one]
  have hbit : bitsVal (s.peek 1) < 2 := by simpa using bitsVal_lt (s.peek 1)
  have htype : bitsVal ((s.consumed 1 1).peek 2) < 4 := by simpa using bitsVal_lt ((s.consumed 1 1).peek 2)
  rw [hrun, hrule, hvalue]
  generalize bitsVal (s.peek 1) = f at hbit
  generalize bitsVal ((s.consumed 1 1).peek 2) = t at htype
  interval_cases f <;> interval_cases t <;> exact inState_of hf _

theorem runElement_storedAlign {s : State} (hf : s.fsm = Fsm.storedAlign.code) :
    runElement (.storedAlign (s.bitCnt.toNat % 8)) s = finish s (ruleOf .storedAlign s) := by
  have hrun : runElement (.storedAlign (s.bitCnt.toNat % 8)) s = exec .storedAlign s := by
    refine runElement_of_ok (rest := (s.peek 28).drop (s.bitCnt.toNat % 8)) ?_
    rw [State.fetch, decode, takeField_peek (by omega)]
    rfl
  exact hrun.trans (inState_of hf _)

theorem runElement_storedLen {s : State} (hf : s.fsm = Fsm.storedLen.code) :
    runElement .storedLen s = finish s (ruleOf .storedLen s) := by
  rw [runElement_field (n := 16) (by omega) s rfl, ruleOf, readBits_bind (by omega)]
  exact inState_of hf _

theorem runElement_storedNlen {s : State} (hf : s.fsm = Fsm.storedNlen.code) :
    runElement .storedNlen s = finish s (ruleOf .storedNlen s) := by
  rw [runElement_field (n := 16) (by omega) s rfl, ruleOf, readBits_bind (by omega)]
  refine (inState_of hf _).trans (congrArg _ (bind_congr_ok fun u hu => ?_))
  obtain ⟨r, rfl⟩ := (Reads.nothing.consume hu).exists_reader
  rfl

theorem runElement_storedCopy {s : State} (hf : s.fsm = Fsm.storedCopy.code) :
    runElement .storedByte s = finish s (ruleOf .storedCopy s) := by
  rw [runElement_field (n := 8) (by omega) s rfl, ruleOf, readBits_bind (by omega)]
  refine (inState_of hf _).trans (congrArg _ (bind_congr_ok fun u hu => bind_congr_ok fun p hp => ?_))
  obtain ⟨r, rfl⟩ := (Reads.nothing.consume hu).exists_reader
  obtain ⟨-, rfl⟩ := produce_eq_ok hp
  rfl

/-- The three fields of format D, one after the other (30_encoding.md rule R104). -/
theorem dynHdrOf_fields {hl hd : Nat} (h1 : hl < 32) (h2 : hd < 32) (hc : Nat) :
    dynHdrOf (hl + 32 * (hd + 32 * hc)) = .dynHdr (BitVec.ofNat 5 hl) (BitVec.ofNat 5 hd) (BitVec.ofNat 4 hc) := by
  have e1 : BitVec.ofNat 5 (hl + 32 * (hd + 32 * hc)) = BitVec.ofNat 5 hl :=
    BitVec.eq_of_toNat_eq (by simp only [BitVec.toNat_ofNat]; omega)
  have e2 : BitVec.ofNat 5 ((hl + 32 * (hd + 32 * hc)) / 32) = BitVec.ofNat 5 hd :=
    BitVec.eq_of_toNat_eq (by simp only [BitVec.toNat_ofNat]; omega)
  have e3 : (hl + 32 * (hd + 32 * hc)) / 1024 = hc := by omega
  rw [dynHdrOf, e1, e2, e3]

theorem runElement_dynHdr {s : State} (hf : s.fsm = Fsm.dynHdr.code) :
    runElement .dynHdr s = finish s (ruleOf .dynHdr s) := by
  have hrun : runElement .dynHdr s = exec (dynHdrOf (bitsVal (s.peek 14))) s := by
    refine runElement_of_ok (rest := (s.peek 28).drop 14) ?_
    rw [State.fetch, decode, takeField_peek (by omega)]
    rfl
  have hvalue : bitsVal (s.peek 14) = bitsVal (s.peek 5) + 32 * (bitsVal ((s.consumed 5 5).peek 5) +
      32 * bitsVal (((s.consumed 5 5).consumed 5 5).peek 4)) := by
    rw [s.peek_append (a := 5) (m := 5) (by omega) (by omega) 9, bitsVal_append, State.peek_length,
      (s.consumed 5 5).peek_append (a := 5) (m := 5) (by omega) (by omega) 4, bitsVal_append, State.peek_length]
    rfl
  have h1 : bitsVal (s.peek 5) < 32 := by simpa using bitsVal_lt (s.peek 5)
  have h2 : bitsVal ((s.consumed 5 5).peek 5) < 32 := by simpa using bitsVal_lt ((s.consumed 5 5).peek 5)
  have h3 : bitsVal (((s.consumed 5 5).consumed 5 5).peek 4) < 16 := by
    simpa using bitsVal_lt (((s.consumed 5 5).consumed 5 5).peek 4)
  rw [hrun, hvalue, dynHdrOf_fields h1 h2, ruleOf, readBits_bind (by omega)]
  refine (inState_of hf _).trans (congrArg _ (bind_congr_ok fun u hu => ?_))
  obtain ⟨rfl, -⟩ := consume_eq_ok (by omega) (by omega) hu
  dsimp only
  rw [readBits_bind (by omega)]
  refine bind_congr_ok fun u hu => ?_
  obtain ⟨rfl, -⟩ := consume_eq_ok (by omega) (by omega) hu
  dsimp only
  rw [readBits_bind (by omega)]
  generalize bitsVal (s.peek 5) = hl at h1
  generalize bitsVal ((s.consumed 5 5).peek 5) = hd at h2
  generalize bitsVal (((s.consumed 5 5).consumed 5 5).peek 4) = hc at h3
  simp only [BitVec.toNat_ofNat, Nat.mod_eq_of_lt h1, Nat.mod_eq_of_lt h2, Nat.mod_eq_of_lt h3]

theorem runElement_dynCllen {s : State} (hf : s.fsm = Fsm.dynCllen.code) :
    runElement .dynCllen s = finish s (ruleOf .dynCllen s) := by
  rw [runElement_field (n := 3) (by omega) s rfl, ruleOf, readBits_bind (by omega)]
  refine (inState_of hf _).trans (congrArg _ (bind_congr_ok fun u hu => ?_))
  obtain ⟨r, rfl⟩ := (Reads.nothing.consume hu).exists_reader
  by_cases h19 : 19 ≤ s.idx.toNat
  · have hperm : perm[s.idx.toNat]? = none := List.getElem?_eq_none h19
    rw [hperm]
    exact (if_pos h19).symm
  · have hperm : perm[s.idx.toNat]? = some (perm.getD s.idx.toNat 0) := by
      rw [List.getD_eq_getElem _ _ (Nat.lt_of_not_le h19), List.getElem?_eq_getElem (Nat.lt_of_not_le h19)]
    rw [hperm]
    exact (if_neg h19).symm

/-! ### Elements with a code -/

theorem consumeCode_eq_ok {L : List Nat} {maxb sym : Nat} (hm : maxb ≤ 16) {s u : State}
    (h : consumeCode L maxb sym s = .ok u) : u = s.consumed maxb (codeLen L sym) := by
  rw [consumeCode, needBits_of_le hm, ok_bind] at h
  split at h
  · cases h
  · exact (dropBits_eq_ok h).2.2

/-- A state that reads a coded element does what `k` says of each symbol, if the element of the symbol does: `rest` are
the bits seen after the code. -/
theorem runElement_coded {c : Ctx} {L : List Nat} {maxb : Nat} {element : Nat → List Bool → Option (Instr × List Bool)}
    {k : Nat × State → Except Stop State} {s : State} (hm : maxb ≤ 15)
    (hc : decode c (s.peek 28) = decodeCoded L maxb element (s.peek 28))
    (hel : ∀ sym < L.length, ∀ rest : List Bool, 13 ≤ rest.length →
      (∀ u, consumeCode L maxb sym s = .ok u → rest = u.peek rest.length) →
      ∃ i rest', element sym rest = some (i, rest') ∧
        exec i s = finish s (consumeCode L maxb sym s >>= fun u => k (sym, u))) :
    runElement c s = finish s (readCode L maxb s >>= k) := by
  have hfetch : s.fetch c = decodeCoded L maxb element (s.peek 28) := hc
  rw [decodeCoded, decodeSym_peek L (by omega)] at hfetch
  cases hd : decodeSym L maxb (s.peek maxb) with
  | none =>
    rw [hd] at hfetch
    rw [readCode_of_none (by omega) hd]
    simp only [runElement, hfetch]
    rfl
  | some q =>
    obtain ⟨sym, l⟩ := q
    obtain ⟨hlen, hsym, -, hl⟩ := decodeSym_eq_some hd
    have hrest : ∀ u, consumeCode L maxb sym s = .ok u → (s.peek 28).drop l = u.peek ((s.peek 28).drop l).length := by
      intro u hu
      obtain rfl := consumeCode_eq_ok (by omega) hu
      have hdrop := s.drop_peek (n := 28 - l) hl (by omega)
      rw [Nat.add_sub_cancel' (show l ≤ 28 by omega)] at hdrop
      rw [hlen, hdrop, State.peek_length]
    have hlength : 13 ≤ ((s.peek 28).drop l).length := by
      rw [List.length_drop, State.peek_length]
      omega
    obtain ⟨i, rest', hi, hexec⟩ := hel sym hsym _ hlength hrest
    rw [readCode_bind_of_some (by omega) hd, ← hexec]
    refine runElement_of_ok (rest := rest') ?_
    rw [hfetch, hd]
    simp only [hi]
    rfl

/-! ### From a symbol to its element -/

theorem withField_of_le {n : Nat} (mk : BitVec n → Instr) {bits : List Bool} (h : n ≤ bits.length) :
    withField n mk bits = some (mk (BitVec.ofNat n (bitsVal (bits.take n))), bits.drop n) := by
  rw [withField, takeField_of_le h]
  rfl

theorem withRepeat_of_le (n base : Nat) (mk : Nat → Instr) {bits : List Bool} (h : n ≤ bits.length) :
    withRepeat n base mk bits = some (mk (base + bitsVal (bits.take n)), bits.drop n) := by
  rw [withRepeat, takeField_of_le h]
  rfl

/-- The operand of an element that is read as a field. -/
theorem toNat_ofNat_bitsVal_take {n : Nat} {bits : List Bool} (h : n ≤ bits.length) :
    (BitVec.ofNat n (bitsVal (bits.take n))).toNat = bitsVal (bits.take n) := by
  have hlt := bitsVal_lt (bits.take n)
  rw [List.length_take, Nat.min_eq_left h] at hlt
  rw [BitVec.toNat_ofNat, Nat.mod_eq_of_lt hlt]

/-- `i` is what the bits after a symbol's code read as, and its `e` extra bits are the first of them. -/
def ReadAs (r : Option (Instr × List Bool)) (bits : List Bool) (e : Nat) (i : Instr) : Prop :=
  r = some (i, bits.drop e) ∧ extraValue i = bitsVal (bits.take e)

theorem readAs_plain {i : Instr} (bits : List Bool) (h : extraValue i = 0) : ReadAs (some (i, bits)) bits 0 i :=
  ⟨rfl, h⟩

theorem readAs_field {n : Nat} {mk : BitVec n → Instr} {bits : List Bool} (hn : n ≤ bits.length)
    (h : ∀ x, extraValue (mk x) = bitsVal (fieldBits n x.toNat)) :
    ReadAs (withField n mk bits) bits n (mk (BitVec.ofNat n (bitsVal (bits.take n)))) :=
  ⟨withField_of_le mk hn, by rw [h, bitsVal_fieldBits_toNat, toNat_ofNat_bitsVal_take hn]⟩

/-- Every length symbol has an element (30_encoding.md rule R110). -/
theorem litLenElement_readAs {sym : Nat} (h257 : 257 ≤ sym) (h285 : sym ≤ 285) {bits : List Bool}
    (hb : lextOf sym ≤ bits.length) :
    ∃ i, i.litLenSymbol = some sym ∧ ReadAs (litLenElement sym bits) bits (lextOf sym) i := by
  rcases Nat.lt_or_ge sym 265 with h265 | h265
  · interval_cases sym <;> exact ⟨_, rfl, readAs_plain bits rfl⟩
  · rcases Nat.lt_or_ge sym 285 with hlt | hge
    · interval_cases sym <;> exact ⟨_, rfl, readAs_field hb fun _ => rfl⟩
    · obtain rfl : sym = 285 := Nat.le_antisymm h285 hge
      exact ⟨_, rfl, readAs_plain bits rfl⟩

/-- Every distance symbol with a meaning has an element (30_encoding.md rule R111). -/
theorem distElement_readAs {d : Nat} (h : d ≤ 29) {bits : List Bool} (hb : dextOf d ≤ bits.length) :
    ∃ i, i.distSymbol = some d ∧ ReadAs (Sys2Proof.distElement d bits) bits (dextOf d) i := by
  rcases Nat.lt_or_ge d 4 with h4 | h4
  · interval_cases d <;> exact ⟨_, rfl, readAs_plain bits rfl⟩
  · interval_cases d <;> exact ⟨_, rfl, readAs_field hb fun _ => rfl⟩

/-! ### The states that read a code or extra bits -/

theorem dextOf_le {d : Nat} (h : d ≤ 29) : dextOf d ≤ 13 := by
  unfold dextOf
  omega

theorem litTable_length (s : State) : s.litTable.length = 288 := by
  unfold State.litTable
  split
  · simp only [fixedLitLen, List.length_append, List.length_replicate]
  · simp [natLens]

theorem distTable_length (s : State) : s.distTable.length = 32 := by
  unfold State.distTable
  split
  · simp [fixedDistLen]
  · simp [natLens]

theorem runElement_sym {s : State} (hf : s.fsm = Fsm.sym.code) :
    runElement (.litLenSym s.litTable) s = finish s (ruleOf .sym s) := by
  refine runElement_coded (by omega) rfl fun sym hsym rest hrest _ => ?_
  rw [litTable_length] at hsym
  rcases Nat.lt_or_ge sym 256 with h256 | h256
  · refine ⟨_, _, litLenElement_of_lt h256 rest, ?_⟩
    have hmod : (BitVec.ofNat 8 sym).toNat = sym := by rw [BitVec.toNat_ofNat, Nat.mod_eq_of_lt h256]
    refine (inState_of hf _).trans (congrArg _ ?_)
    rw [hmod]
    exact bind_congr_ok fun u _ => (if_pos (Nat.le_of_lt_succ h256)).symm
  · rcases Nat.lt_or_ge sym 286 with h286 | h286
    · rcases Nat.eq_or_lt_of_le h256 with rfl | h257
      · exact ⟨_, _, rfl, inState_of hf _⟩
      · obtain ⟨i, hi, hread, -⟩ := litLenElement_readAs h257 (Nat.le_of_lt_succ h286) (bits := rest)
          (Nat.le_trans (lextOf_le sym) (by omega))
        refine ⟨i, _, hread, ?_⟩
        rw [exec_of_lengthSymbol hi h257 (by omega), lengthElement, if_pos hf]
        refine congrArg _ (bind_congr_ok fun u _ => ?_)
        simp only [show ¬sym ≤ 255 by omega, show sym ≠ 256 by omega, show sym ≤ 285 by omega, if_true, if_false]
    · interval_cases sym <;> exact ⟨_, _, rfl, inState_of hf _⟩

theorem runElement_distSym {s : State} (hf : s.fsm = Fsm.distSym.code) :
    runElement (.distSym s.distTable) s = finish s (ruleOf .distSym s) := by
  refine runElement_coded (by omega) rfl fun d hd rest hrest _ => ?_
  rw [distTable_length] at hd
  rcases Nat.lt_or_ge d 30 with h30 | h30
  · obtain ⟨i, hi, hread, -⟩ := distElement_readAs (Nat.le_of_lt_succ h30) (bits := rest)
      (Nat.le_trans (dextOf_le (by omega)) hrest)
    refine ⟨i, _, hread, ?_⟩
    rw [exec_of_distSymbol hi (by omega), distElement, if_pos hf]
    exact congrArg _ (bind_congr_ok fun u _ => (if_neg (Nat.not_le_of_lt h30)).symm)
  · interval_cases d <;> exact ⟨_, _, rfl, inState_of hf _⟩

theorem runElement_lenExtra {s : State} (hf : s.fsm = Fsm.lenExtra.code) :
    runElement (.lenExtra s.lsym.toNat) s = finish s (ruleOf .lenExtra s) := by
  by_cases h : 257 ≤ s.lsym.toNat ∧ s.lsym.toNat ≤ 285
  · have hext := lextOf_le s.lsym.toNat
    obtain ⟨i, hi, hread, hx⟩ := litLenElement_readAs h.1 h.2 (bits := s.peek 28) (by rw [State.peek_length]; omega)
    have hfetch : s.fetch (.lenExtra s.lsym.toNat) = .ok (i, (s.peek 28).drop (lextOf s.lsym.toNat)) := by
      rw [State.fetch, decode, if_pos h, hread]
      rfl
    have hsym : s.fsm ≠ Fsm.sym.code := by rw [hf]; decide
    rw [runElement_of_ok hfetch, exec_of_lengthSymbol hi h.1 h.2, lengthElement, if_neg hsym, if_pos ⟨hf, rfl⟩, ruleOf,
      if_pos h, readBits_bind (by omega), hx, s.take_peek (by omega)]
    refine congrArg _ (bind_congr_ok fun u hu => ?_)
    obtain ⟨rfl, -⟩ := consume_eq_ok (by omega) (Nat.le_refl _) hu
    simp only [State.consumed_lsym]
  · have hfetch : s.fetch (.lenExtra s.lsym.toNat) = .error .noSuchSymbol := by rw [State.fetch, decode, if_neg h]
    rw [ruleOf, if_neg h]
    simp only [runElement, hfetch]
    rfl

theorem runElement_distExtra {s : State} (hf : s.fsm = Fsm.distExtra.code) :
    runElement (.distExtra s.dsym.toNat) s = finish s (ruleOf .distExtra s) := by
  by_cases h : s.dsym.toNat ≤ 29
  · have hext := dextOf_le h
    obtain ⟨i, hi, hread, hx⟩ := distElement_readAs h (bits := s.peek 28) (by rw [State.peek_length]; omega)
    have hfetch : s.fetch (.distExtra s.dsym.toNat) = .ok (i, (s.peek 28).drop (dextOf s.dsym.toNat)) := by
      rw [State.fetch, decode, if_pos h, hread]
      rfl
    have hsym : s.fsm ≠ Fsm.distSym.code := by rw [hf]; decide
    rw [runElement_of_ok hfetch, exec_of_distSymbol hi h, distElement, if_neg hsym, if_pos ⟨hf, rfl⟩, ruleOf,
      if_pos h, readBits_bind (by omega), hx, s.take_peek (by omega)]
    refine congrArg _ (bind_congr_ok fun u hu => ?_)
    obtain ⟨r, rfl⟩ := (Reads.nothing.consume hu).exists_reader
    rfl
  · have hfetch : s.fetch (.distExtra s.dsym.toNat) = .error .noSuchSymbol := by rw [State.fetch, decode, if_neg h]
    rw [ruleOf, if_neg h]
    simp only [runElement, hfetch]
    rfl

theorem runElement_dynLens {s : State} (hf : s.fsm = Fsm.dynLens.code) :
    runElement (.clSym s.clTable) s = finish s (ruleOf .dynLens s) := by
  refine runElement_coded (by omega) rfl fun sym hsym rest hrest hseen => ?_
  have h19 : s.clTable.length = 19 := by simp [State.clTable, natLens]
  rw [h19] at hsym
  rcases Nat.lt_or_ge sym 16 with h16 | h16
  · refine ⟨_, _, clElement_of_lt h16 rest, ?_⟩
    have hmod : (BitVec.ofNat 4 sym).toNat = sym := by rw [BitVec.toNat_ofNat, Nat.mod_eq_of_lt h16]
    refine (inState_of hf _).trans (congrArg _ ?_)
    rw [hmod]
    exact bind_congr_ok fun u _ => (if_pos (Nat.le_of_lt_succ h16)).symm
  · have hrepeat : ∀ {e : Nat} {u : State}, e ≤ 13 → consumeCode s.clTable 7 sym s = .ok u →
        bitsVal (rest.take e) = bitsVal (u.peek e) := fun he hu => by
      rw [hseen _ hu, State.take_peek (by omega)]
    interval_cases sym
    · refine ⟨_, _, withRepeat_of_le 2 3 .clRep16 (by omega), ?_⟩
      refine (inState_of hf _).trans (congrArg _ (bind_congr_ok fun u hu => ?_))
      rw [hrepeat (e := 2) (by omega) hu]
      obtain ⟨r, rfl⟩ := (Reads.nothing.consumeCode hu).exists_reader
      simp only [show ¬16 ≤ 15 by omega, if_true, if_false]
      refine if_congr Iff.rfl rfl ?_
      rw [readBits_bind (by omega)]
      refine bind_congr_ok fun w hw => ?_
      obtain ⟨q, rfl⟩ := (Reads.nothing.consume hw).exists_reader
      rfl
    · refine ⟨_, _, withRepeat_of_le 3 3 .clZero17 (by omega), ?_⟩
      refine (inState_of hf _).trans (congrArg _ (bind_congr_ok fun u hu => ?_))
      rw [hrepeat (e := 3) (by omega) hu]
      simp only [show ¬17 ≤ 15 by omega, show 17 ≠ 16 by omega, if_true, if_false]
      rw [readBits_bind (n := 3) (by omega)]
    · refine ⟨_, _, withRepeat_of_le 7 11 .clZero18 (by omega), ?_⟩
      refine (inState_of hf _).trans (congrArg _ (bind_congr_ok fun u hu => ?_))
      rw [hrepeat (e := 7) (by omega) hu]
      simp only [show ¬18 ≤ 15 by omega, show 18 ≠ 16 by omega, show 18 ≠ 17 by omega, if_false]
      rw [readBits_bind (n := 7) (by omega)]

/-! ### Every state -/

/-- The step of an FSM state is its rule. -/
theorem stepOf_eq_rule {f : Fsm} {s : State} (hf : s.fsm = f.code) : stepOf f s = finish s (ruleOf f s) := by
  cases f
  case hdr => exact runElement_hdr hf
  case storedAlign => exact runElement_storedAlign hf
  case storedLen => exact runElement_storedLen hf
  case storedNlen => exact runElement_storedNlen hf
  case storedCopy => exact runElement_storedCopy hf
  case dynHdr => exact runElement_dynHdr hf
  case dynCllen => exact runElement_dynCllen hf
  case dynLens => exact runElement_dynLens hf
  case sym => exact runElement_sym hf
  case lenExtra => exact runElement_lenExtra hf
  case distSym => exact runElement_distSym hf
  case distExtra => exact runElement_distExtra hf
  case copy =>
    refine congrArg (finish s) (bind_congr_ok fun p hp => ?_)
    obtain ⟨-, rfl⟩ := produce_eq_ok hp
    rfl
  all_goals rfl

/-- What a step is when neither reset nor START takes it and `FSM` names a state. -/
theorem step_eq_rule {f : Fsm} {s : State} (h : s.ownStep) (hf : s.fsm = f.code) : step s = finish s (ruleOf f s) := by
  rw [step_of_fsm h.1 h.2 hf, stepOf_eq_rule hf]

end Sys2Proof.Machine

namespace Sys2Proof.Machine

/-! # What a step takes from the host

Two runs of one rule: in `s`, and in `s` with other levels and another `SRC`.  `ReadsAhead` says what the second run
does where the two sources agree ahead of `IN_POS`; every rule has it, because its reads have it and its writes do not
look. -/

/-- `s` with other levels and another source memory. -/
def State.withHost (p : Pins) (m : List Host.Cell) (s : State) : State := { s with pins := p, src := m }

/-- The memory `m` reads as `SRC` does from `IN_POS` up to, and without, `hi`. -/
def State.Agrees (s : State) (m : List Host.Cell) (hi : Nat) : Prop :=
  ∀ a, s.inPos ≤ a → a < hi → Memory.read m a = Memory.read s.src a

/-! ### Outcomes -/

theorem bind_eq_error {α β : Type} {x : Except Stop α} {k : α → Except Stop β} {e : Stop} (h : (x >>= k) = .error e) :
    x = .error e ∨ ∃ a, x = .ok a ∧ k a = .error e := by
  cases x with
  | ok a => exact .inr ⟨a, rfl, h⟩
  | error f => exact .inl (by cases h; rfl)

/-! ### The bit reader -/

theorem State.inPos_le_stageByte (s : State) : s.inPos ≤ s.stageByte.inPos := by
  have := s.stageByte_position
  omega

theorem State.inPos_le_stageLoop (n k : Nat) (s : State) : s.inPos ≤ (State.stageLoop n k s).inPos := by
  induction k generalizing s with
  | zero => exact Nat.le_refl _
  | succ k ih =>
    unfold State.stageLoop
    split
    · exact Nat.le_trans s.inPos_le_stageByte (ih _)
    · exact Nat.le_refl _

/-- No byte is pulled from beyond the end of the source (40_bit_reader.md rule R152). -/
theorem State.stageLoop_inPos_le (n k : Nat) (s : State) :
    (State.stageLoop n k s).inPos ≤ max s.inPos s.srcLen := by
  induction k generalizing s with
  | zero => exact Nat.le_max_left _ _
  | succ k ih =>
    unfold State.stageLoop
    split
    · have := ih s.stageByte
      have := s.stageByte_position
      rw [State.stageByte_srcLen] at *
      omega
    · exact Nat.le_max_left _ _

theorem State.stageByte_withHost {s : State} {m : List Host.Cell} (p : Pins) (h : s.Agrees m s.stageByte.inPos) :
    (s.withHost p m).stageByte = s.stageByte.withHost p m := by
  have hpos := s.stageByte_position
  have hin : (s.withHost p m).byteIn = (s.byteIn.1, s.byteIn.2.withHost p m) := by
    unfold State.byteIn
    rw [show (s.withHost p m).inPos = s.inPos from rfl, show (s.withHost p m).srcLen = s.srcLen from rfl]
    split
    · exact congrArg (·, _) (h s.inPos (Nat.le_refl _) (by omega))
    · rfl
  rw [State.stageByte, hin]
  rfl

theorem State.stageLoop_withHost {n k : Nat} {s : State} {m : List Host.Cell} (p : Pins)
    (h : s.Agrees m (State.stageLoop n k s).inPos) :
    State.stageLoop n k (s.withHost p m) = (State.stageLoop n k s).withHost p m := by
  induction k generalizing s with
  | zero => rfl
  | succ k ih =>
    unfold State.stageLoop at h ⊢
    rw [show (s.withHost p m).bitCnt = s.bitCnt from rfl]
    split
    · next hlt =>
      rw [if_pos hlt] at h
      have hle := State.inPos_le_stageLoop n k s.stageByte
      rw [State.stageByte_withHost p fun a h1 h2 => h a h1 (Nat.lt_of_lt_of_le h2 hle), ih]
      intro a h1 h2
      rw [State.stageByte_src]
      exact h a (Nat.le_trans s.inPos_le_stageByte h1) h2
    · rfl

/-! ### Reads -/

/-- `R` takes from the host what it pulls from the source, and no level. -/
structure Reading {α : Type} (R : State → Except Stop (α × State)) : Prop where
  ok : ∀ {s u : State} {x : α}, R s = .ok (x, u) → (∃ r, u = s.withReader r) ∧ s.inPos ≤ u.inPos ∧
    u.inPos ≤ max s.inPos s.srcLen ∧ ∀ p m, s.Agrees m u.inPos → R (s.withHost p m) = .ok (x, u.withHost p m)
  error : ∀ {s : State} {e : Stop}, R s = .error e →
    e ≠ .hold ∧ ∀ p m, s.Agrees m s.srcLen → R (s.withHost p m) = .error e

theorem State.Agrees.mono {s : State} {m : List Host.Cell} {hi hi' : Nat} (h : s.Agrees m hi)
    (hle : hi' ≤ max s.inPos hi) : s.Agrees m hi' := fun a h1 h2 => h a h1 (by omega)

@[simp] theorem State.withHost_bitBuf (p : Pins) (m : List Host.Cell) (s : State) :
    (s.withHost p m).bitBuf = s.bitBuf := rfl

@[simp] theorem State.withHost_truncated (p : Pins) (m : List Host.Cell) (s : State) :
    (s.withHost p m).truncated = s.truncated := rfl

theorem dropBits_withHost (n : Nat) (p : Pins) (m : List Host.Cell) (s : State) :
    dropBits n (s.withHost p m) = (dropBits n s).map (State.withHost p m) := by
  unfold dropBits
  rw [show (s.withHost p m).bitCnt = s.bitCnt from rfl]
  split
  · rw [show (s.withHost p m).shiftOut n = (s.shiftOut n).withHost p m from rfl, State.withHost_truncated]
    split <;> rfl
  · rfl

theorem dropBits_ne_hold (n : Nat) (s : State) : dropBits n s ≠ .error .hold := by
  intro h
  unfold dropBits at h
  split at h
  · split at h <;> cases h
  · cases h

/-- A computation on the state that `NeedBits` leaves, which drops some of its bits, is a read. -/
theorem Reading.of_staged {α : Type} {R : State → Except Stop (α × State)} {n : State → Nat}
    (hcomm : ∀ s p m, (s.withHost p m).staged (n s) = (s.staged (n s)).withHost p m →
      R (s.withHost p m) = (R s).map fun q => (q.1, q.2.withHost p m))
    (hok : ∀ {s u x}, R s = .ok (x, u) → ∃ k, u = s.consumed (n s) k) (herror : ∀ s, R s ≠ .error .hold) :
    Reading R where
  ok {s u x} h := by
    obtain ⟨k, rfl⟩ := hok h
    refine ⟨⟨_, State.consumed_eq_withReader _ _ s⟩, State.inPos_le_stageLoop _ _ s, State.stageLoop_inPos_le _ _ s,
      fun p m ha => ?_⟩
    rw [hcomm s p m (State.stageLoop_withHost p ha), h]
    rfl
  error {s e} h := by
    refine ⟨fun he => herror s (he ▸ h), fun p m ha => ?_⟩
    rw [hcomm s p m (State.stageLoop_withHost p (ha.mono (State.stageLoop_inPos_le _ _ s))), h]
    rfl

theorem Reading.readBits {n : State → Nat} (hn : ∀ s, n s ≤ 16)
    (hh : ∀ s p m, n (s.withHost p m) = n s := by intros; rfl) : Reading fun s => readBits (n s) s := by
  refine .of_staged (n := n) (fun s p m hst => ?_) (fun {s u x} h => ?_) (fun s h => ?_)
  · have hconsumed : (s.withHost p m).consumed (n s) (n s) = (s.consumed (n s) (n s)).withHost p m := by
      rw [State.consumed, hst]
      rfl
    rw [hh, readBits_eq (hn s), readBits_eq (hn s), hst, hconsumed, State.withHost_truncated]
    split <;> rfl
  · rw [readBits_eq (hn s)] at h
    split at h
    · cases h
    · cases h
      exact ⟨n s, rfl⟩
  · rw [readBits_eq (hn s)] at h
    split at h <;> cases h

/-- `Decode` finds no code, or drops the bits of the one it finds. -/
theorem readCode_cases {L : List Nat} {maxb : Nat} (hm : maxb ≤ 16) (s : State) :
    readCode L maxb s = .error (.raise .unsupportedSymbol) ∨
      ∃ q : Nat × Nat, readCode L maxb s = (dropBits q.2 (s.staged maxb) >>= fun u => .ok (q.1, u)) := by
  rw [readCode_eq hm]
  cases decodeSym L maxb (s.peek maxb) with
  | none => exact .inl rfl
  | some q => exact .inr ⟨q, rfl⟩

theorem Reading.readCode {L : State → List Nat} {maxb : Nat} (hm : maxb ≤ 16)
    (hh : ∀ s p m, L (s.withHost p m) = L s := by intros; rfl) : Reading fun s => readCode (L s) maxb s := by
  refine .of_staged (n := fun _ => maxb) (fun s p m hst => ?_) (fun {s u x} h => ?_) (fun s h => ?_)
  · rw [hh, readCode_eq hm, readCode_eq hm, State.peek_eq_fieldBits (Nat.le_refl maxb) hm, hst,
      s.peek_eq_fieldBits (Nat.le_refl maxb) hm, State.withHost_bitBuf]
    cases decodeSym (L s) maxb (fieldBits maxb (s.staged maxb).bitBuf.toNat) with
    | none => rfl
    | some q =>
      rw [Option.elim_some, Option.elim_some, dropBits_withHost]
      cases dropBits q.2 (s.staged maxb) <;> rfl
  · obtain hn | ⟨q, hq⟩ := readCode_cases (L := L s) hm s
    · cases hn.symm.trans h
    · obtain ⟨w, hw, hu⟩ := bind_eq_ok (hq.symm.trans h)
      cases hu
      exact ⟨q.2, (dropBits_eq_ok hw).2.2⟩
  · obtain hn | ⟨q, hq⟩ := readCode_cases (L := L s) hm s
    · cases hn.symm.trans h
    · obtain hd | ⟨w, -, hu⟩ := bind_eq_error (hq.symm.trans h)
      · exact dropBits_ne_hold _ _ hd
      · cases hu

/-! ### Rules -/

/-- `X` takes from the host what it pulls from the source, and `out_ready` where it produces a byte.  `advance` and
`stall` ask that the sources agree up to the next `IN_POS`, `stop` that they agree up to `SRC_LEN`. -/
structure ReadsAhead (X : State → Except Stop State) : Prop where
  inPos_le : ∀ {s t : State}, X s = .ok t → s.inPos ≤ t.inPos ∧ t.inPos ≤ max s.inPos s.srcLen
  advance : ∀ {s t : State} {p : Pins} {m : List Host.Cell}, X s = .ok t → s.Agrees m t.inPos →
    p.outReady = s.pins.outReady → X (s.withHost p m) = .ok (t.withHost p m)
  stop : ∀ {s : State} {e : Stop} {p : Pins} {m : List Host.Cell}, X s = .error e → s.Agrees m s.srcLen →
    p.outReady = s.pins.outReady → X (s.withHost p m) = .error e
  stall : ∀ {s t : State} {p : Pins} {m : List Host.Cell}, X s = .ok t → s.Agrees m t.inPos →
    t.out ≠ s.out → p.outReady = false → X (s.withHost p m) = .error .hold
  hold : ∀ {s : State}, X s = .error .hold → s.pins.outReady = false

theorem ReadsAhead.ok {g : State → State}
    (hcomm : ∀ s p m, g (s.withHost p m) = (g s).withHost p m := by intros; rfl)
    (hkeep : ∀ s, (g s).inPos = s.inPos ∧ (g s).out = s.out := by exact fun _ => ⟨rfl, rfl⟩) :
    ReadsAhead fun s => .ok (g s) where
  inPos_le {s _} h := by
    have hpos := (hkeep s).1
    cases h
    omega
  advance h _ _ := by cases h; rw [hcomm]
  stop h := by cases h
  stall h _ hout := by cases h; exact absurd (hkeep _).2 hout
  hold h := by cases h

theorem ReadsAhead.error {e : Stop} (he : e ≠ .hold := by nofun) : ReadsAhead fun _ => .error e where
  inPos_le h := by cases h
  advance h := by cases h
  stop h _ _ := h
  stall h := by cases h
  hold h := by cases h; exact absurd rfl he

/-- A rule that does in every state what some such rule does. -/
theorem ReadsAhead.of_eq {X : State → Except Stop State}
    (h : ∀ s, ∃ Y, ReadsAhead Y ∧ X s = Y s ∧ ∀ p m, X (s.withHost p m) = Y (s.withHost p m)) : ReadsAhead X where
  inPos_le {s _} hx := by
    obtain ⟨Y, hY, hs, -⟩ := h s
    exact hY.inPos_le (hs ▸ hx)
  advance {s _ p m} hx ha hp := by
    obtain ⟨Y, hY, hs, hh⟩ := h s
    exact (hh p m).trans (hY.advance (hs ▸ hx) ha hp)
  stop {s _ p m} hx ha hp := by
    obtain ⟨Y, hY, hs, hh⟩ := h s
    exact (hh p m).trans (hY.stop (hs ▸ hx) ha hp)
  stall {s _ p m} hx ha hout hp := by
    obtain ⟨Y, hY, hs, hh⟩ := h s
    exact (hh p m).trans (hY.stall (hs ▸ hx) ha hout hp)
  hold {s} hx := by
    obtain ⟨Y, hY, hs, -⟩ := h s
    exact hY.hold (hs ▸ hx)

theorem ReadsAhead.ite {c : State → Prop} [DecidablePred c] {X Y : State → Except Stop State} (hX : ReadsAhead X)
    (hY : ReadsAhead Y) (hc : ∀ s p m, c (s.withHost p m) = c s := by intros; rfl) :
    ReadsAhead fun s => if c s then X s else Y s :=
  .of_eq fun s => by
    by_cases h : c s
    · exact ⟨X, hX, if_pos h, fun p m => if_pos ((hc s p m).symm ▸ h)⟩
    · exact ⟨Y, hY, if_neg h, fun p m => if_neg ((hc s p m).symm ▸ h)⟩

theorem ReadsAhead.checkTable {L : State → List Nat} {maxb : Nat} {X : State → Except Stop State}
    (hX : ReadsAhead X) (hL : ∀ s p m, L (s.withHost p m) = L s := by intros; rfl) :
    ReadsAhead fun s => checkTable s.cfg.rejectIncomplete (L s) maxb >>= fun _ => X s :=
  .of_eq fun s => by
    have hh : ∀ p m, Machine.checkTable (s.withHost p m).cfg.rejectIncomplete (L (s.withHost p m)) maxb =
        Machine.checkTable s.cfg.rejectIncomplete (L s) maxb := fun p m => by rw [hL]; rfl
    cases hb : buildDyn s.cfg.rejectIncomplete (L s) maxb with
    | none =>
      have hx : Machine.checkTable s.cfg.rejectIncomplete (L s) maxb = .ok () := by rw [Machine.checkTable, hb]
      exact ⟨X, hX, by rw [hx]; rfl, fun p m => by rw [hh, hx]; rfl⟩
    | some e =>
      have hx : Machine.checkTable s.cfg.rejectIncomplete (L s) maxb = .error (.raise e) := by
        rw [Machine.checkTable, hb]
      exact ⟨_, ReadsAhead.error (e := .raise e), by rw [hx]; rfl, fun p m => by rw [hh, hx]; rfl⟩

theorem produce_eq_error {b : Byte} {s : State} {e : Stop} (h : produce b s = .error e) :
    s.pins.outReady = false ∧ e = .hold := by
  unfold produce at h
  split at h
  · cases h
  · next hr => exact ⟨Bool.eq_false_of_not_eq_true hr, by cases h; rfl⟩

theorem produce_of_not_ready {b : Byte} {s : State} (h : s.pins.outReady = false) : produce b s = .error .hold := by
  simp [produce, h]

theorem ReadsAhead.produce {b : State → Byte} (hb : ∀ s p m, b (s.withHost p m) = b s := by intros; rfl) :
    ReadsAhead fun s => produce (b s) s where
  inPos_le h := by
    obtain ⟨-, rfl⟩ := produce_eq_ok h
    exact ⟨Nat.le_refl _, Nat.le_max_left _ _⟩
  advance h _ hp := by
    obtain ⟨hr, rfl⟩ := produce_eq_ok h
    rw [hb]
    exact produce_of_ready (hp.trans hr)
  stop h _ hp := by
    obtain ⟨hr, rfl⟩ := produce_eq_error h
    exact produce_of_not_ready (hp.trans hr)
  stall _ _ _ hp := produce_of_not_ready hp
  hold h := (produce_eq_error h).1

/-- Writes after a rule that do not look at the host. -/
theorem ReadsAhead.map {X : State → Except Stop State} {g : State → State} (hX : ReadsAhead X)
    (hcomm : ∀ s p m, g (s.withHost p m) = (g s).withHost p m := by intros; rfl)
    (hkeep : ∀ s, (g s).inPos = s.inPos ∧ (g s).out = s.out := by exact fun _ => ⟨rfl, rfl⟩) :
    ReadsAhead fun s => X s >>= fun u => .ok (g u) where
  inPos_le h := by
    obtain ⟨u, hu, ht⟩ := bind_eq_ok h
    cases ht
    exact (hkeep u).1 ▸ hX.inPos_le hu
  advance h ha hp := by
    obtain ⟨u, hu, ht⟩ := bind_eq_ok h
    cases ht
    rw [hX.advance hu ((hkeep u).1 ▸ ha) hp, ok_bind, hcomm]
  stop h ha hp := by
    obtain hx | ⟨u, -, ht⟩ := bind_eq_error h
    · rw [hX.stop hx ha hp, error_bind]
    · cases ht
  stall h ha hout hp := by
    obtain ⟨u, hu, ht⟩ := bind_eq_ok h
    cases ht
    rw [hX.stall hu ((hkeep u).1 ▸ ha) ((hkeep u).2 ▸ hout) hp, error_bind]
  hold h := by
    obtain hx | ⟨u, -, ht⟩ := bind_eq_error h
    · exact hX.hold hx
    · cases ht

/-- A read, then a rule: the second looks ahead of where the first has come to. -/
theorem ReadsAhead.bind {α : Type} {R : State → Except Stop (α × State)} {k : α × State → Except Stop State}
    (hR : Reading R) (hk : ∀ x, ReadsAhead fun u => k (x, u)) : ReadsAhead fun s => R s >>= k where
  inPos_le h := by
    obtain ⟨⟨x, u⟩, hu, ht⟩ := bind_eq_ok h
    obtain ⟨⟨r, rfl⟩, hle, hmax, -⟩ := hR.ok hu
    obtain ⟨hle', hmax'⟩ := (hk x).inPos_le ht
    exact ⟨Nat.le_trans hle hle', Nat.le_trans hmax' (Nat.max_le.mpr ⟨hmax, Nat.le_max_right _ _⟩)⟩
  advance {s t p m} h ha hp := by
    obtain ⟨⟨x, u⟩, hu, ht⟩ := bind_eq_ok h
    obtain ⟨⟨r, rfl⟩, hle, -, hcomm⟩ := hR.ok hu
    have hmono := ((hk x).inPos_le ht).1
    rw [hcomm p m (ha.mono (by omega)), ok_bind]
    exact (hk x).advance ht (fun a h1 h2 => ha a (Nat.le_trans hle h1) h2) hp
  stop {s e p m} h ha hp := by
    obtain hx | ⟨⟨x, u⟩, hu, ht⟩ := bind_eq_error h
    · rw [(hR.error hx).2 p m ha, error_bind]
    · obtain ⟨⟨r, rfl⟩, hle, hmax, hcomm⟩ := hR.ok hu
      rw [hcomm p m (ha.mono hmax), ok_bind]
      exact (hk x).stop ht (fun a h1 h2 => ha a (Nat.le_trans hle h1) h2) hp
  stall {s t p m} h ha hout hp := by
    obtain ⟨⟨x, u⟩, hu, ht⟩ := bind_eq_ok h
    obtain ⟨⟨r, rfl⟩, hle, -, hcomm⟩ := hR.ok hu
    have hmono := ((hk x).inPos_le ht).1
    rw [hcomm p m (ha.mono (by omega)), ok_bind]
    exact (hk x).stall ht (fun a h1 h2 => ha a (Nat.le_trans hle h1) h2) hout hp
  hold {s} h := by
    obtain hx | ⟨⟨x, u⟩, hu, ht⟩ := bind_eq_error h
    · exact absurd rfl (hR.error hx).1
    · obtain ⟨⟨r, rfl⟩, -⟩ := hR.ok hu
      have hready := (hk x).hold ht
      exact hready

end Sys2Proof.Machine

namespace Sys2Proof.Machine

/-! ### Every rule -/

theorem ReadsAhead.putLengths {v : State → BitVec 4} (r : Nat)
    (hv : ∀ s p m, v (s.withHost p m) = v s := by intros; rfl) : ReadsAhead fun s => putLengths (v s) r s := by
  unfold Machine.putLengths
  refine .ite .error (.ite .error (.ok fun s p m => ?_))
  rw [hv]
  rfl

theorem ReadsAhead.alignToByte : ReadsAhead alignToByte := by
  unfold Machine.alignToByte dropBits
  exact .ite (.ite .error .ok) .error

/-- Every rule reads ahead alone. -/
theorem ruleOf_readsAhead (f : Fsm) : ReadsAhead (ruleOf f) := by
  have hbits : ∀ n ≤ 16, Reading fun s => readBits n s := fun n hn => .readBits fun _ => hn
  cases f
  case hdr =>
    exact .bind (hbits 1 (by omega)) fun f => .bind (hbits 2 (by omega)) fun t => .ite .error .ok
  case storedAlign => exact .map .alignToByte
  case storedLen => exact .bind (hbits 16 (by omega)) fun v => .ok
  case storedNlen => exact .bind (hbits 16 (by omega)) fun v => .ite .error (.ite .ok .ok)
  case storedCopy =>
    refine .bind (hbits 8 (by omega)) fun v => .map .produce (fun s p m => ?_) fun s => ?_
    · rw [apply_ite (State.withHost p m)]
      rfl
    · split <;> exact ⟨rfl, rfl⟩
  case dynHdr =>
    exact .bind (hbits 5 (by omega)) fun hl => .bind (hbits 5 (by omega)) fun hd => .bind (hbits 4 (by omega)) fun hc =>
      .ite .error .ok
  case dynCllen => exact .bind (hbits 3 (by omega)) fun v => .ite .error .ok
  case dynLens =>
    refine .bind (.readCode (by omega)) fun q => .ite (.putLengths 1) (.ite (.ite .error ?_) (.ite ?_ ?_))
    · exact .bind (hbits 2 (by omega)) fun x => .putLengths _
    · exact .bind (hbits 3 (by omega)) fun x => .putLengths _
    · exact .bind (hbits 7 (by omega)) fun x => .putLengths _
  case sym => exact .bind (.readCode (by omega)) fun q => .ite .produce (.ite .ok (.ite .ok .error))
  case lenExtra =>
    exact .ite (.bind (.readBits fun s => Nat.le_trans (lextOf_le s.lsym.toNat) (by omega)) fun x => .ok) .error
  case distSym => exact .bind (.readCode (by omega)) fun q => .ite .error .ok
  case distExtra =>
    have hext : ∀ s : State, dextOf s.dsym.toNat ≤ 16 := fun s => by
      have := s.dsym.isLt
      unfold dextOf
      omega
    exact .ite (.bind (.readBits hext) fun x => .ite .error .ok) .error
  case fixedSetup => exact .ok
  case dynClbuild => exact .checkTable .ok
  case dynBuild => exact .ite .error (.checkTable (.checkTable .ok))
  case copy => exact .map .produce
  case idle => exact .ok
  case done => exact .ok
  case error => exact .ok

/-! ### The step -/

theorem finish_withHost {s t : State} {r : Except Stop State} (p : Pins) (m : List Host.Cell)
    (h : finish s r = .next t) : finish (s.withHost p m) (r.map (State.withHost p m)) = .next (t.withHost p m) := by
  obtain rfl | ⟨e, rfl, rfl⟩ | ⟨rfl, rfl⟩ := finish_eq_next h
  · rw [Except.map, finish_ok]
  · rw [Except.map, finish_raise]
    rfl
  · rw [Except.map, finish_hold]

theorem finish_eq_fault {s : State} {r : Except Stop State} {f : Fault} (h : finish s r = .fault f) :
    r = .error (.fault f) := by
  match r with
  | .ok u => cases h
  | .error (.raise e) => cases h
  | .error .hold => cases h
  | .error (.fault g) => cases h; rfl

/-- A rule depends on the offsets from `IN_POS` up to `SRC_LEN` alone. -/
theorem ruleOf_withSrc (f : Fsm) {s : State} {m : List Host.Cell} (h : s.Agrees m s.srcLen) :
    ruleOf f (s.withHost s.pins m) = (ruleOf f s).map (State.withHost s.pins m) := by
  have hf := ruleOf_readsAhead f
  cases hr : ruleOf f s with
  | ok t => exact hf.advance hr (h.mono (hf.inPos_le hr).2) rfl
  | error e => exact hf.stop hr h rfl

/-- Reset and START do not look at `SRC`. -/
theorem step_withSrc_of_not_ownStep {s : State} (m : List Host.Cell) (h : ¬s.ownStep) :
    ∃ u, step s = .next u ∧ step { s with src := m } = .next { u with src := m } := by
  rcases step_cases s with ⟨hr, hst⟩ | ⟨hr, h1, h2, hst⟩ | ⟨hr, hs, -⟩
  · exact ⟨_, hst, step_of_rst hr⟩
  · exact ⟨_, hst, step_of_start hr h1 h2⟩
  · exact absurd ⟨hr, hs⟩ h

/-- A step that neither reset nor START takes is the rule of the FSM state, unless `FSM` names none. -/
theorem step_own_cases {s : State} (h : s.ownStep) :
    (Fsm.ofCode s.fsm = none ∧ step s = .fault .fsmUnused) ∨ ∃ f, s.fsm = f.code ∧ step s = finish s (ruleOf f s) := by
  rcases step_cases s with ⟨hr, -⟩ | ⟨-, h1, h2, -⟩ | ⟨-, -, hnone | ⟨f, hf, -⟩⟩
  · simp [h.1] at hr
  · simpa [h1, h2] using h.2
  · exact .inl hnone
  · exact .inr ⟨f, hf, step_eq_rule h hf⟩

theorem step_pins {s t : State} (hown : s.ownStep) (h : step s = .next t) : t.pins = s.pins := by
  obtain ⟨o, ho⟩ := step_stepResult hown h
  have hcall := ho.callInputs
  simp only [State.callInputs, Prod.mk.injEq] at hcall
  exact hcall.2.1

/-- Settles O44: a rule reads ahead alone, and reset and START do not look at `SRC`. -/
theorem stepReadsSourceAheadOnly : Obligations.StepReadsSourceAheadOnly := by
  intro s m
  by_cases hown : s.ownStep
  swap
  · obtain ⟨u, hu, hm⟩ := step_withSrc_of_not_ownStep m hown
    have hnext : ∀ t, step s = .next t → step { s with src := m } = .next { t with src := m } := fun t h => by
      cases hu.symm.trans h
      exact hm
    exact ⟨fun t h _ _ _ => hnext t h, fun _ => ⟨hnext, fun f h => by cases hu.symm.trans h⟩,
      fun t h => absurd h hown⟩
  have hwith : ∀ t, step s = .next t → t.withHost s.pins m = { t with src := m } := fun t h => by
    rw [← step_pins hown h]
    rfl
  have hcases := step_own_cases (s := s.withHost s.pins m) hown
  rcases step_own_cases hown with ⟨hnone, hfault⟩ | ⟨f, hf, hstep⟩
  · obtain ⟨-, hm⟩ | ⟨g, hg, -⟩ := hcases
    · have hnot : ∀ t, step s ≠ .next t := fun t h => by cases hfault.symm.trans h
      exact ⟨fun t h => absurd h (hnot t), fun _ => ⟨fun t h => absurd h (hnot t),
        fun f h => hm.trans (hfault.symm.trans h)⟩, fun t _ h => absurd h (hnot t)⟩
    · have hg' : s.fsm = g.code := hg
      rw [hg', Fsm.ofCode_code] at hnone
      cases hnone
  · have hm : step { s with src := m } = finish (s.withHost s.pins m) (ruleOf f (s.withHost s.pins m)) :=
      step_eq_rule (s := s.withHost s.pins m) hown hf
    have hahead := ruleOf_readsAhead f
    refine ⟨fun t h hne hprogress ha => ?_, fun ha => ⟨fun t h => ?_, fun g h => ?_⟩, fun t _ h => ?_⟩
    · obtain hok | ⟨e, -, rfl⟩ | ⟨hhold, rfl⟩ := finish_eq_next (hstep.symm.trans h)
      · rw [hm, hahead.advance hok ha rfl, finish_ok, hwith t h]
      · exact absurd (State.raise_fsm e s) hne
      · simp [hahead.hold hhold] at hprogress
    · rw [hm, ruleOf_withSrc f ha, finish_withHost s.pins m (hstep.symm.trans h), hwith t h]
    · rw [hm, ruleOf_withSrc f ha, finish_eq_fault (hstep.symm.trans h)]
      rfl
    · obtain hok | ⟨e, -, rfl⟩ | ⟨-, rfl⟩ := finish_eq_next (hstep.symm.trans h)
      · exact (hahead.inPos_le hok).1
      · exact Nat.le_refl _
      · exact Nat.le_refl _

/-- Where the host is not ready, a step that would produce holds. -/
theorem ruleOf_stall {f : Fsm} {s t : State} (h : ruleOf f s.ready = .ok t) (hout : t.out ≠ s.out)
    (hr : s.pins.outReady = false) : ruleOf f s = .error .hold :=
  (ruleOf_readsAhead f).stall (s := s.ready) (p := s.pins) (m := s.src) h (fun _ _ _ => rfl) hout hr

theorem State.ready_of_ready {s : State} (h : s.pins.outReady = true) : s.ready = s := by
  cases s with
  | mk cfg pins =>
    cases pins
    cases h
    rfl

/-- Without reset a step starts a call, which empties `OUT`, or keeps `OUT`, or appends one byte to it. -/
theorem step_out_cases {s t : State} (hrst : s.pins.rst = false) (h : step s = .next t) :
    t.out = [] ∨ t.out = s.out ∨ ∃ b, s.ownStep ∧ s.pins.outReady = true ∧ t.out = s.out ++ [b] := by
  by_cases hown : s.ownStep
  · obtain ⟨hkeep, -⟩ | ⟨b, hr, hput, -⟩ := stepProducesAtMostOneByte s t hown h
    · exact .inr (.inl hkeep)
    · exact .inr (.inr ⟨b, hown, hr, hput⟩)
  · rcases step_cases s with ⟨hr, -⟩ | ⟨-, -, -, hst⟩ | ⟨hr, hs, -⟩
    · simp [hrst] at hr
    · cases hst.symm.trans h
      exact .inl rfl
    · exact absurd ⟨hr, hs⟩ hown

/-- The port presents `b` where the step with `out_ready` = 1 is the FSM state's own and appends `b`. -/
theorem State.outPort_eq_some_iff {s : State} (hrst : s.pins.rst = false) (b : Byte) :
    s.outPort = some b ↔ s.ownStep ∧ ∃ t, step s.ready = .next t ∧ t.out = s.out ++ [b] := by
  constructor
  · intro h
    unfold State.outPort at h
    split at h
    · next t ht =>
      obtain hnil | hkeep | ⟨c, hown, -, hput⟩ := step_out_cases (s := s.ready) hrst ht
      · simp [hnil] at h
      · simp [hkeep] at h
      · rw [hput] at h
        have hc : c = b := by simpa using h
        exact ⟨hown, t, ht, hc ▸ hput⟩
    · cases h
    · cases h
  · rintro ⟨-, t, ht, hput⟩
    simp [State.outPort, ht, hput]

/-- Settles O42: the port presents what `Produce` would transfer, and of the steps only one that produces holds. -/
theorem outputPortTransfersOnReady : Obligations.OutputPortTransfersOnReady := by
  intro s b hrst
  refine ⟨fun hport => ?_, fun t h hout => ?_⟩
  · obtain ⟨hown, t, ht, hput⟩ := (State.outPort_eq_some_iff hrst b).mp hport
    refine ⟨fun hr => ⟨t, State.ready_of_ready hr ▸ ht, hput⟩, fun hr => ?_⟩
    have hne : t.out ≠ s.out := by simp [hput]
    obtain ⟨-, hfault⟩ | ⟨f, hf, hstep⟩ := step_own_cases (s := s.ready) hown
    · cases hfault.symm.trans ht
    · obtain hok | ⟨e, -, rfl⟩ | ⟨-, rfl⟩ := finish_eq_next (hstep.symm.trans ht)
      · rw [step_eq_rule hown hf, ruleOf_stall hok hne hr, finish_hold]
      · exact absurd rfl hne
      · exact absurd rfl hne
  · obtain hnil | hkeep | ⟨c, hown, hr, -⟩ := step_out_cases hrst h
    · simp [hnil] at hout
    · simp [hkeep] at hout
    · exact (State.outPort_eq_some_iff hrst b).mpr ⟨hown, t, (State.ready_of_ready hr).symm ▸ h, hout⟩

end Sys2Proof.Machine

namespace Sys2Proof.Machine

/-! # The host's moves -/

/-! ### Loading -/

/-- A payload filled in from offset `a` reads as its bytes, and 0 elsewhere. -/
theorem Memory.read_ofBytes {a k : Nat} (vs : List Byte) : Memory.read (Memory.ofBytes a vs) (a + k) = vs.getD k 0 := by
  induction vs generalizing a k with
  | nil => rfl
  | cons v vs ih =>
    have hbelow : Memory.read (Memory.ofBytes (a + 1) vs) a = 0 :=
      Memory.read_of_lt (Memory.ofBytes_wfFrom (a + 1) vs) (Nat.lt_succ_self a)
    cases k with
    | zero =>
      by_cases hv : v = Memory.unlisted
      · simp [Memory.ofBytes, hv, hbelow, Memory.unlisted]
      · simp [Memory.ofBytes, hv, Memory.read]
    | succ k =>
      have hrest := ih (a := a + 1) (k := k)
      rw [show a + 1 + k = a + (k + 1) by omega] at hrest
      by_cases hv : v = Memory.unlisted
      · simp [Memory.ofBytes, hv, hrest]
      · simp [Memory.ofBytes, hv, Memory.read, hrest]

/-! ### The invariant -/

theorem State.Inv.hostMove {s t : State} {mv : HostMove} (hs : s.Inv) (h : s.hostMove mv = .next t) : t.Inv := by
  cases mv with
  | drive p =>
    cases h
    exact { hs with reader := { hs.reader with }, window := { hs.window with } }
  | load bytes =>
    unfold State.hostMove at h
    dsimp only at h
    split at h
    · cases h
    · next hb =>
      cases h
      exact { hs with
        reader := { hs.reader with staged_eq := fun hbusy => absurd hbusy hb }
        window := { hs.window with }
        src_wf := Memory.ofBytes_wf bytes }

theorem hostMove_ne_fault (s : State) (mv : HostMove) (f : Fault) : s.hostMove mv ≠ .fault f := by
  cases mv with
  | drive p => nofun
  | load bytes =>
    unfold State.hostMove
    dsimp only
    split <;> nofun

/-! ### No rule faults -/

/-- The computation ends or stops without a fault. -/
def NoFault {α : Type} (x : Except Stop α) : Prop := ∀ f, x ≠ .error (.fault f)

theorem NoFault.bind {α β : Type} {x : Except Stop α} {k : α → Except Stop β} (hx : NoFault x)
    (hk : ∀ a, x = .ok a → NoFault (k a)) : NoFault (x >>= k) := fun f h => by
  obtain he | ⟨a, ha, he⟩ := bind_eq_error h
  · exact hx f he
  · exact hk a ha f he

theorem NoFault.dropBits {n : Nat} {s : State} (h : n ≤ s.bitCnt.toNat) : NoFault (dropBits n s) := by
  intro f
  rw [dropBits_of_le h]
  split <;> nofun

theorem NoFault.readBits {n : Nat} (hn : n ≤ 16) (s : State) : NoFault (readBits n s) := by
  intro f
  rw [readBits_eq hn]
  split <;> nofun

theorem NoFault.readCode {L : List Nat} {maxb : Nat} (hm : maxb ≤ 16) (s : State) : NoFault (readCode L maxb s) := by
  rw [readCode_eq hm]
  cases hd : decodeSym L maxb (s.peek maxb) with
  | none => nofun
  | some q =>
    obtain ⟨-, -, -, hl⟩ := decodeSym_eq_some hd
    exact .bind (.dropBits (Nat.le_trans hl (State.le_staged_bitCnt hm s))) fun _ _ => nofun

theorem NoFault.checkTable (reject : Bool) (L : List Nat) (maxb : Nat) : NoFault (checkTable reject L maxb) := by
  unfold Machine.checkTable
  split <;> nofun

theorem NoFault.produce (b : Byte) (s : State) : NoFault (produce b s) := by
  unfold Machine.produce
  split <;> nofun

theorem NoFault.putLengths (v : BitVec 4) (r : Nat) {s : State} (h : s.lensTotal ≤ 316) :
    NoFault (putLengths v r s) := by
  unfold Machine.putLengths
  split
  · nofun
  · rw [if_neg (by omega)]
    nofun

theorem readBits_withReader {n : Nat} (hn : n ≤ 16) {s u : State} {v : Nat} (h : readBits n s = .ok (v, u)) :
    ∃ r, u = s.withReader r := ((Reading.readBits (n := fun _ => n) fun _ => hn).ok h).1

theorem readCode_withReader {L : List Nat} {maxb : Nat} (hm : maxb ≤ 16) {s u : State} {sym : Nat}
    (h : readCode L maxb s = .ok (sym, u)) : ∃ r, u = s.withReader r := ((Reading.readCode (L := fun _ => L) hm).ok h).1

theorem State.countsLegal.lensTotal_le {s : State} (h : s.countsLegal) : s.lensTotal ≤ 316 := by
  obtain ⟨-, h286, -, h30⟩ := h
  unfold State.lensTotal
  omega

/-- A rule does not fault where its state finds what it is entered with. -/
theorem ruleOf_noFault {f : Fsm} {s : State} (h : s.StateInv f) : NoFault (ruleOf f s) := by
  cases f
  case hdr =>
    exact .bind (.readBits (by omega) s) fun q _ => .bind (.readBits (by omega) q.2) fun _ _ => by
      dsimp only
      split <;> nofun
  case storedAlign => exact .bind (.dropBits (Nat.mod_le _ _)) fun _ _ => nofun
  case storedLen => exact .bind (.readBits (by omega) s) fun _ _ => nofun
  case storedNlen =>
    refine .bind (.readBits (by omega) s) fun _ _ => ?_
    dsimp only
    split
    · nofun
    · split <;> nofun
  case storedCopy => exact .bind (.readBits (by omega) s) fun _ _ => .bind (.produce _ _) fun _ _ => nofun
  case dynHdr =>
    exact .bind (.readBits (by omega) s) fun q _ => .bind (.readBits (by omega) q.2) fun q _ =>
      .bind (.readBits (by omega) q.2) fun _ _ => by
        dsimp only
        split <;> nofun
  case dynCllen =>
    obtain ⟨-, -, h19, hidx⟩ := h
    refine .bind (.readBits (by omega) s) fun ⟨v, u⟩ hu => ?_
    obtain ⟨r, rfl⟩ := readBits_withReader (by omega) hu
    have hlt : ¬19 ≤ (s.withReader r).idx.toNat := Nat.not_le_of_lt (Nat.lt_of_lt_of_le hidx h19)
    dsimp only
    rw [if_neg hlt]
    nofun
  case dynLens =>
    have hT := h.1.lensTotal_le
    refine .bind (.readCode (by omega) s) fun ⟨sym, u⟩ hu => ?_
    obtain ⟨r, rfl⟩ := readCode_withReader (by omega) hu
    have hextra : ∀ n ≤ 16, ∀ (v : State → BitVec 4) (base : Nat),
        NoFault (readBits n (s.withReader r) >>= fun q => putLengths (v q.2) (base + q.1) q.2) := by
      intro n hn v base
      refine .bind (.readBits hn _) fun ⟨x, w⟩ hw => ?_
      obtain ⟨r', rfl⟩ := readBits_withReader hn hw
      exact .putLengths _ _ hT
    dsimp only
    split
    · exact .putLengths _ _ hT
    · split
      · split
        · nofun
        · exact hextra 2 (by omega) (fun w => w.lensAt (w.idx.toNat - 1)) 3
      · split
        · exact hextra 3 (by omega) (fun _ => 0) 3
        · exact hextra 7 (by omega) (fun _ => 0) 11
  case sym =>
    refine .bind (.readCode (by omega) s) fun _ _ => ?_
    dsimp only
    split
    · exact .produce _ _
    · split
      · nofun
      · split <;> nofun
  case lenExtra =>
    rw [ruleOf, if_pos h.2]
    exact .bind (.readBits (Nat.le_trans (lextOf_le _) (by omega)) s) fun _ _ => nofun
  case distSym =>
    refine .bind (.readCode (by omega) s) fun _ _ => ?_
    dsimp only
    split <;> nofun
  case distExtra =>
    obtain ⟨-, -, -, h29⟩ := h
    rw [ruleOf, if_pos h29]
    refine .bind (.readBits (Nat.le_trans (dextOf_le h29) (by omega)) s) fun _ _ => ?_
    dsimp only
    split <;> nofun
  case fixedSetup => nofun
  case dynClbuild => exact .bind (.checkTable _ _ _) fun _ _ => nofun
  case dynBuild =>
    have hT := h.1.lensTotal_le
    rw [ruleOf, if_neg (by omega)]
    exact .bind (.checkTable _ _ _) fun _ _ => .bind (.checkTable _ _ _) fun _ _ => nofun
  case copy => exact .bind (.produce _ _) fun _ _ => nofun
  case idle => nofun
  case done => nofun
  case error => nofun

/-- A step from a state of the invariant does not fault. -/
theorem State.Inv.step_ne_fault {s : State} (hs : s.Inv) (f : Fault) : step s ≠ .fault f := by
  intro h
  rcases step_cases s with ⟨-, hr⟩ | ⟨-, -, -, hst⟩ | ⟨-, -, ⟨hnone, -⟩ | ⟨g, hg, hstep⟩⟩
  · cases hr.symm.trans h
  · cases hst.symm.trans h
  · obtain ⟨g, hg, -⟩ := hs.state
    cases hnone.symm.trans hg
  · rw [hstep, stepOf_eq_rule hg] at h
    exact ruleOf_noFault (hs.stateInv hg) f (finish_eq_fault h)

/-! ### Schedules -/

/-- Moves and a step keep the invariant and do not fault. -/
theorem State.Inv.cycle {s : State} (hs : s.Inv) (moves : List HostMove) :
    (∀ t, cycle moves s = .next t → t.Inv) ∧ ∀ f, cycle moves s ≠ .fault f := by
  induction moves generalizing s with
  | nil => exact ⟨fun t h => stepKeepsInvariant s t hs h, hs.step_ne_fault⟩
  | cons mv moves ih =>
    rw [Machine.cycle]
    cases hmv : s.hostMove mv with
    | next u => exact ih (hs.hostMove hmv)
    | fault f => exact absurd hmv (hostMove_ne_fault s mv f)
    | refused r => exact ⟨fun _ h => (by cases h), fun _ h => (by cases h)⟩

theorem State.Inv.runCycles {s : State} (hs : s.Inv) (schedule : List (List HostMove)) :
    (∀ t, runCycles schedule s = .next t → t.Inv) ∧ ∀ f, runCycles schedule s ≠ .fault f := by
  induction schedule generalizing s with
  | nil => exact ⟨fun t h => by cases h; exact hs, nofun⟩
  | cons moves rest ih =>
    rw [Machine.runCycles]
    cases hc : Machine.cycle moves s with
    | next u => exact ih ((hs.cycle moves).1 u hc)
    | fault f => exact absurd hc ((hs.cycle moves).2 f)
    | refused r => exact ⟨fun _ h => (by cases h), fun _ h => (by cases h)⟩

/-- Settles O60: a move writes the levels or, at rest, `SRC`, of which the invariant asks nothing but its form. -/
theorem hostMovesKeepInvariant : Obligations.HostMovesKeepInvariant := by
  refine ⟨fun _ _ => rfl, fun s bytes => ⟨fun hb => if_pos hb, fun hb => ⟨Memory.ofBytes 0 bytes, ?_, fun a => ?_⟩⟩,
    fun _ _ _ hs h => hs.hostMove h, fun _ t schedule hs h => (hs.runCycles schedule).1 t h,
    fun _ schedule f hs => (hs.runCycles schedule).2 f⟩
  · simp [State.hostMove, hb]
  · simpa using Memory.read_ofBytes (a := 0) (k := a) bytes

end Sys2Proof.Machine

namespace Sys2Proof.Machine

/-! # Decoding and encoding

`decode` and `encode` are each other's inverse: the codes of a table are read back as their symbols (41_huffman.md
rules R182, R184, R189), and what follows a code is read back as the element (30_encoding.md rule R116). -/

/-! ### Codes as bits -/

@[simp] theorem codeBits_length (l c : Nat) : (codeBits l c).length = l := by
  rw [codeBits, List.length_reverse, fieldBits_length]

/-- A bit read makes the code so far one bit longer (41_huffman.md rule R189). -/
theorem codeBits_snoc (l c : Nat) (b : Bool) : codeBits (l + 1) (2 * c + b.toNat) = codeBits l c ++ [b] := by
  have hbit : ((2 * c + b.toNat) % 2 == 1) = b := by cases b <;> simp
  have hrest : (2 * c + b.toNat) / 2 = c := by cases b <;> simp; omega
  rw [codeBits, fieldBits, hbit, hrest, List.reverse_cons, codeBits]

theorem fieldBits_add (a b v : Nat) : fieldBits (a + b) v = fieldBits a v ++ fieldBits b (v / 2 ^ a) := by
  induction a generalizing v with
  | zero => simp [fieldBits]
  | succ a ih =>
    rw [Nat.add_right_comm, fieldBits, ih, fieldBits, Nat.pow_succ', Nat.div_div_eq_div_mul, List.cons_append]

/-- The first bit of a code is its most significant one (20_memory.md rule R72). -/
theorem codeBits_succ (d c : Nat) : codeBits (d + 1) c = (c / 2 ^ d % 2 == 1) :: codeBits d c := by
  rw [codeBits, fieldBits_add, List.reverse_append]
  rfl

/-! ### The codes of a table -/

/-- `codeOf` of a symbol of length `l` (41_huffman.md rule R182). -/
theorem codeOf_of_getElem? {L : List Nat} {s l : Nat} (h : L[s]? = some l) :
    codeOf L s = firstCode L l + (L.take s).count l := by
  rw [codeOf, codeLen, List.getD_eq_getElem?_getD, h, Option.getD_some]

theorem getElem?_of_codeLen_ne_zero {L : List Nat} {s : Nat} (h : codeLen L s ≠ 0) : L[s]? = some (codeLen L s) := by
  rw [codeLen, List.getD_eq_getElem?_getD] at h ⊢
  cases hs : L[s]? with
  | none => simp [hs] at h
  | some l => rfl

/-- The codes of length `l` are the `count[l]` values from the first one on. -/
theorem codeOf_lt_firstCode_add_count {L : List Nat} {s l : Nat} (h : L[s]? = some l) :
    codeOf L s < firstCode L l + L.count l := by
  obtain ⟨hs, hl⟩ := List.getElem?_eq_some_iff.mp h
  have hcount : L.count l = (L.take s).count l + (L.drop s).count l := by
    rw [← List.count_append, List.take_append_drop]
  have hpos : 0 < (L.drop s).count l := by
    rw [List.drop_eq_getElem_cons hs, hl]
    simp
  rw [codeOf_of_getElem? h]
  omega

/-- A longer code comes after all shorter ones, cut to their length (41_huffman.md rule R184). -/
theorem mul_le_firstCode (L : List Nat) (l d : Nat) :
    2 ^ (d + 1) * (firstCode L (l + 1) + L.count (l + 1)) ≤ firstCode L (l + (d + 2)) := by
  induction d with
  | zero => exact Nat.le_refl _
  | succ d ih =>
    calc 2 ^ (d + 1 + 1) * (firstCode L (l + 1) + L.count (l + 1))
        = 2 * (2 ^ (d + 1) * (firstCode L (l + 1) + L.count (l + 1))) := by ring
      _ ≤ 2 * (firstCode L (l + (d + 2)) + L.count (l + (d + 2))) := by omega
      _ = firstCode L (l + (d + 1 + 2)) := rfl

/-- The codes fit their length where the check of 41_huffman.md rule R183 passes: `2 * left` is what the shorter codes
leave of the space of length `l + 1`. -/
theorem firstCode_add_count_le_of_prefixCheck {L : List Nat} {k l left r : Nat} (h : prefixCheck L k l left = some r)
    (hleft : 2 * left + firstCode L (l + 1) = 2 ^ (l + 1)) {j : Nat} (h1 : l < j) (h2 : j ≤ l + k) :
    firstCode L j + L.count j ≤ 2 ^ j := by
  induction k generalizing l left with
  | zero => omega
  | succ k ih =>
    unfold prefixCheck at h
    split at h
    · cases h
    · next hcount =>
      rcases Nat.eq_or_lt_of_le (Nat.succ_le_of_lt h1) with heq | hlt
      · rw [← heq, Nat.succ_eq_add_one]
        omega
      · have hnext : firstCode L (l + 1 + 1) = 2 * (firstCode L (l + 1) + L.count (l + 1)) := rfl
        have hpow : 2 ^ (l + 1 + 1) = 2 * 2 ^ (l + 1) := Nat.pow_succ'
        exact ih h (by omega) hlt (by omega)

theorem buildStatus_ne_overSubscribed_iff {L : List Nat} {maxb : Nat} :
    buildStatus L maxb ≠ .overSubscribed ↔ ∃ left, prefixCheck L maxb 0 1 = some left := by
  unfold buildStatus
  cases prefixCheck L maxb 0 1 with
  | none => simp
  | some left =>
    refine iff_of_true ?_ ⟨left, rfl⟩
    dsimp only
    split
    · nofun
    · split <;> nofun

theorem tableSound.codeOf_lt {L : List Nat} {maxb s : Nat} (hL : tableSound L maxb) (hs : codeLen L s ≠ 0) :
    codeOf L s < 2 ^ codeLen L s := by
  obtain ⟨hstatus, hle⟩ := hL
  obtain ⟨left, hleft⟩ := buildStatus_ne_overSubscribed_iff.mp hstatus
  have hmax : codeLen L s ≤ 0 + maxb := by simpa using codeLen_le_of_all hle s
  exact Nat.lt_of_lt_of_le (codeOf_lt_firstCode_add_count (getElem?_of_codeLen_ne_zero hs))
    (firstCode_add_count_le_of_prefixCheck hleft rfl (Nat.pos_of_ne_zero hs) hmax)

/-! ### Matching a code -/

theorem symbolAt_eq_some_iff {xs : List Nat} {l next c s t : Nat} :
    symbolAt xs l next c s = some t ↔ ∃ k, t = s + k ∧ xs[k]? = some l ∧ c = next + (xs.take k).count l := by
  induction xs generalizing next s with
  | nil => simp [symbolAt]
  | cons x xs ih =>
    rw [← Nat.or_exists_add_one, symbolAt]
    by_cases hx : x = l
    · by_cases hc : next = c
      · rw [if_pos hx, if_pos hc]
        simp [hx, hc, eq_comm]
      · rw [if_pos hx, if_neg hc, ih]
        simp [hx, Ne.symm hc, Nat.add_comm, Nat.add_left_comm]
    · rw [if_neg hx, ih]
      simp [hx, Nat.add_comm, Nat.add_left_comm]

/-- The symbol of length `l` with code `c` is the one whose code is `c`. -/
theorem symbolAt_firstCode {L : List Nat} {l c t : Nat} :
    symbolAt L l (firstCode L l) c 0 = some t ↔ L[t]? = some l ∧ codeOf L t = c := by
  rw [symbolAt_eq_some_iff]
  constructor
  · rintro ⟨k, rfl, hk, rfl⟩
    rw [Nat.zero_add]
    exact ⟨hk, codeOf_of_getElem? hk⟩
  · rintro ⟨ht, rfl⟩
    exact ⟨t, (Nat.zero_add t).symm, ht, codeOf_of_getElem? ht⟩

/-- The bits read make up the code of the symbol found. -/
theorem matchCode_prefix {L : List Nat} {bs : List Bool} {l c s l' : Nat}
    (h : matchCode L bs l c (firstCode L (l + 1)) = some (s, l')) :
    codeBits l' (codeOf L s) <+: codeBits l c ++ bs := by
  induction bs generalizing l c with
  | nil => cases h
  | cons b bs ih =>
    unfold matchCode at h
    rw [List.append_cons, ← codeBits_snoc]
    split at h
    · next t ht =>
      obtain ⟨-, hc⟩ := symbolAt_firstCode.mp ht
      cases h
      rw [hc]
      exact List.prefix_append _ _
    · exact ih h

theorem decodeSym_bits {L : List Nat} {maxb : Nat} {bits : List Bool} {s l : Nat}
    (h : decodeSym L maxb bits = some (s, l)) : bits = codeBits l (codeOf L s) ++ bits.drop l := by
  have hp : codeBits l (codeOf L s) <+: bits := (matchCode_prefix h).trans (List.take_prefix maxb bits)
  obtain ⟨rest, rfl⟩ := hp
  rw [List.drop_left' (codeBits_length l _)]

/-- The loop of `Decode` (41_huffman.md rule R189) on the last `d + 1` bits of the code of `s`: the code begins with
no shorter one. -/
theorem matchCode_codeBits {L : List Nat} {s d l : Nat} (h : L[s]? = some (l + (d + 1))) (rest : List Bool) :
    matchCode L (codeBits (d + 1) (codeOf L s) ++ rest) l (codeOf L s / 2 ^ (d + 1)) (firstCode L (l + 1)) =
      some (s, l + (d + 1)) := by
  have hbit : ∀ k, 2 * (codeOf L s / 2 ^ (k + 1)) + (codeOf L s / 2 ^ k % 2 == 1).toNat = codeOf L s / 2 ^ k := by
    intro k
    rw [Nat.pow_succ, ← Nat.div_div_eq_div_mul]
    generalize codeOf L s / 2 ^ k = c
    rcases Nat.mod_two_eq_zero_or_one c with hc | hc <;> simp [hc] <;> omega
  induction d generalizing l with
  | zero =>
    have hfound : symbolAt L (l + 1) (firstCode L (l + 1)) (codeOf L s / 2 ^ 0) 0 = some s :=
      symbolAt_firstCode.mpr ⟨h, by simp⟩
    rw [codeBits_succ, List.cons_append, matchCode, hbit, hfound]
  | succ d ih =>
    have hnone : symbolAt L (l + 1) (firstCode L (l + 1)) (codeOf L s / 2 ^ (d + 1)) 0 = none := by
      refine Option.eq_none_iff_forall_ne_some.mpr fun t ht => ?_
      obtain ⟨hlen, hcode⟩ := symbolAt_firstCode.mp ht
      have hlt : codeOf L s / 2 ^ (d + 1) < firstCode L (l + 1) + L.count (l + 1) :=
        hcode ▸ codeOf_lt_firstCode_add_count hlen
      have hge : firstCode L (l + 1) + L.count (l + 1) ≤ codeOf L s / 2 ^ (d + 1) := by
        rw [Nat.le_div_iff_mul_le (Nat.two_pow_pos _), Nat.mul_comm]
        exact Nat.le_trans (mul_le_firstCode L l d) (codeOf_of_getElem? h ▸ Nat.le_add_right _ _)
      omega
    have hl : l + 1 + (d + 1) = l + (d + 1 + 1) := by omega
    rw [codeBits_succ, List.cons_append, matchCode, hbit, hnone, ← hl]
    exact ih (hl ▸ h)

/-- The code of a symbol is read back as the symbol, whatever follows. -/
theorem decodeSym_codeBits {L : List Nat} {maxb s : Nat} (hL : tableSound L maxb) (hs : codeLen L s ≠ 0)
    (rest : List Bool) :
    decodeSym L maxb (codeBits (codeLen L s) (codeOf L s) ++ rest) = some (s, codeLen L s) := by
  have hlt := hL.codeOf_lt hs
  have hmax : codeLen L s ≤ maxb := codeLen_le_of_all hL.2 s
  have hget := getElem?_of_codeLen_ne_zero hs
  obtain ⟨d, hd⟩ := Nat.exists_eq_add_one_of_ne_zero hs
  rw [hd] at hlt hmax hget ⊢
  have htake : (codeBits (d + 1) (codeOf L s) ++ rest).take maxb =
      codeBits (d + 1) (codeOf L s) ++ rest.take (maxb - (d + 1)) := by
    simp [List.take_append, hmax]
  have hmatch := matchCode_codeBits (l := 0) (by rwa [Nat.zero_add]) (rest.take (maxb - (d + 1)))
  rwa [Nat.div_eq_of_lt hlt, Nat.zero_add (d + 1), ← htake] at hmatch

/-! ### From a symbol to its element, and back -/

open Laws.FieldRoundTrip in
/-- Every element is read back from its symbol and extra bits. -/
theorem fieldRoundTrip (i : Instr) : Statement i := by
  cases i
  exacts [hdrStored _, hdrFixed _, hdrDynamic _, hdrReserved _, storedAlign, storedLen _, storedNlen _, storedByte _,
    dynHdr _ _ _, dynCllen _, clLen _, clRep16 _, clZero17 _, clZero18 _, lit _, eob, len257, len258, len259, len260,
    len261, len262, len263, len264, len265 _, len266 _, len267 _, len268 _, len269 _, len270 _, len271 _, len272 _,
    len273 _, len274 _, len275 _, len276 _, len277 _, len278 _, len279 _, len280 _, len281 _, len282 _, len283 _,
    len284 _, len285, litlen286, litlen287, dist0, dist1, dist2, dist3, dist4 _, dist5 _, dist6 _, dist7 _, dist8 _,
    dist9 _, dist10 _, dist11 _, dist12 _, dist13 _, dist14 _, dist15 _, dist16 _, dist17 _, dist18 _, dist19 _,
    dist20 _, dist21 _, dist22 _, dist23 _, dist24 _, dist25 _, dist26 _, dist27 _, dist28 _, dist29 _, distsym30,
    distsym31]

/-- In the alphabet that `symbol` numbers, `i` is the element of `s`, and `bits` are its extra bits, then `rest`. -/
def SpelledBy (symbol : Instr → Option Nat) (s : Nat) (bits : List Bool) (i : Instr) (rest : List Bool) : Prop :=
  symbol i = some s ∧ i.wellFormed = true ∧ bits = i.extraBits ++ rest

section
variable {symbol : Instr → Option Nat} {s : Nat} {bits rest : List Bool} {i : Instr}

theorem spelledBy_plain {j : Instr} (hs : symbol j = some s) (hw : j.wellFormed = true) (he : j.extraBits = [])
    (h : some (j, bits) = some (i, rest)) : SpelledBy symbol s bits i rest := by
  cases h
  exact ⟨hs, hw, by rw [he, List.nil_append]⟩

/-- What is read from one field is followed by the bits after the field. -/
theorem map_takeField_eq_some {n : Nat} {f : Nat → Instr}
    (h : ((takeField n bits).map fun p => (f p.1, p.2)) = some (i, rest)) :
    ∃ v < 2 ^ n, i = f v ∧ bits = fieldBits n v ++ rest := by
  obtain ⟨⟨v, tail⟩, hv, heq⟩ := Option.map_eq_some_iff.mp h
  obtain ⟨rfl, rfl⟩ := Prod.mk.inj heq
  obtain ⟨hbits, hlt⟩ := takeField_eq_some hv
  exact ⟨v, hlt, rfl, hbits⟩

/-- The field of an operand is the operand's. -/
theorem withField_eq_some {n : Nat} {mk : BitVec n → Instr} (h : withField n mk bits = some (i, rest)) :
    ∃ x, i = mk x ∧ bits = fieldBits n x.toNat ++ rest := by
  obtain ⟨v, hlt, rfl, hbits⟩ := map_takeField_eq_some (f := fun v => mk (BitVec.ofNat n v)) h
  exact ⟨_, rfl, by rw [BitVec.toNat_ofNat, Nat.mod_eq_of_lt hlt, hbits]⟩

theorem spelledBy_field {n : Nat} {mk : BitVec n → Instr} (hs : ∀ x, symbol (mk x) = some s)
    (hw : ∀ x, (mk x).wellFormed = true) (he : ∀ x, (mk x).extraBits = fieldBits n x.toNat)
    (h : withField n mk bits = some (i, rest)) : SpelledBy symbol s bits i rest := by
  obtain ⟨x, rfl, hbits⟩ := withField_eq_some h
  exact ⟨hs x, hw x, by rw [he, hbits]⟩

theorem spelledBy_repeat {n base : Nat} {mk : Nat → Instr} (hs : ∀ r, symbol (mk r) = some s)
    (hw : ∀ v < 2 ^ n, (mk (base + v)).wellFormed = true)
    (he : ∀ r, (mk r).extraBits = fieldBits n (r - base))
    (h : withRepeat n base mk bits = some (i, rest)) : SpelledBy symbol s bits i rest := by
  obtain ⟨v, hlt, rfl, hbits⟩ := map_takeField_eq_some (f := fun v => mk (base + v)) h
  exact ⟨hs _, hw v hlt, by rw [he, Nat.add_sub_cancel_left, hbits]⟩

theorem clElement_add (k : Nat) (bits : List Bool) : clElement (k + 19) bits = none :=
  if_neg (c := k + 19 < 16) (t := some (.clLen (BitVec.ofNat 4 (k + 19)), bits)) (by omega)

theorem clElement_spelledBy (h : clElement s bits = some (i, rest)) : SpelledBy Instr.clSymbol s bits i rest := by
  rcases Nat.lt_or_ge s 16 with h16 | h16
  · rw [clElement_of_lt h16] at h
    exact spelledBy_plain (by simp [Instr.clSymbol, Nat.mod_eq_of_lt h16]) rfl rfl h
  rcases Nat.lt_or_ge s 19 with h19 | h19
  · have hwf : ∀ base n : Nat, ∀ v < n, (decide (base ≤ base + v) && decide (base + v ≤ base + n - 1)) = true := by
      intro base n v hv
      simp only [Bool.and_eq_true, decide_eq_true_eq]
      omega
    interval_cases s
    · exact spelledBy_repeat (fun _ => rfl) (hwf 3 4) (fun _ => rfl) h
    · exact spelledBy_repeat (fun _ => rfl) (hwf 3 8) (fun _ => rfl) h
    · exact spelledBy_repeat (fun _ => rfl) (hwf 11 128) (fun _ => rfl) h
  · obtain ⟨k, rfl⟩ := Nat.exists_eq_add_of_le' h19
    rw [clElement_add] at h
    cases h

theorem litLenElement_add (k : Nat) (bits : List Bool) : litLenElement (k + 288) bits = none :=
  if_neg (c := k + 288 < 256) (t := some (.lit (BitVec.ofNat 8 (k + 288)), bits)) (by omega)

theorem litLenElement_spelledBy (h : litLenElement s bits = some (i, rest)) :
    SpelledBy Instr.litLenSymbol s bits i rest := by
  rcases Nat.lt_or_ge s 256 with h256 | h256
  · rw [litLenElement_of_lt h256] at h
    exact spelledBy_plain (by simp [Instr.litLenSymbol, Nat.mod_eq_of_lt h256]) rfl rfl h
  rcases Nat.lt_or_ge s 265 with h265 | h265
  · interval_cases s <;> exact spelledBy_plain rfl rfl rfl h
  rcases Nat.lt_or_ge s 285 with h285 | h285
  · interval_cases s <;> exact spelledBy_field (fun _ => rfl) (fun _ => rfl) (fun _ => rfl) h
  rcases Nat.lt_or_ge s 288 with h288 | h288
  · interval_cases s <;> exact spelledBy_plain rfl rfl rfl h
  · obtain ⟨k, rfl⟩ := Nat.exists_eq_add_of_le' h288
    rw [litLenElement_add] at h
    cases h

theorem distElement_add (k : Nat) (bits : List Bool) : Sys2Proof.distElement (k + 32) bits = none := rfl

theorem distElement_spelledBy (h : Sys2Proof.distElement s bits = some (i, rest)) :
    SpelledBy Instr.distSymbol s bits i rest := by
  rcases Nat.lt_or_ge s 4 with h4 | h4
  · interval_cases s <;> exact spelledBy_plain rfl rfl rfl h
  rcases Nat.lt_or_ge s 30 with h30 | h30
  · interval_cases s <;> exact spelledBy_field (fun _ => rfl) (fun _ => rfl) (fun _ => rfl) h
  rcases Nat.lt_or_ge s 32 with h32 | h32
  · interval_cases s <;> exact spelledBy_plain rfl rfl rfl h
  · obtain ⟨k, rfl⟩ := Nat.exists_eq_add_of_le' h32
    rw [distElement_add] at h
    cases h

end

/-! ### Coded elements -/

theorem orError_eq_ok {e : DecodeError} {o : Option (Instr × List Bool)} {p : Instr × List Bool}
    (h : orError e o = .ok p) : o = some p := by
  cases o with
  | none => cases h
  | some q => exact congrArg some (Except.ok.inj h)

section
variable {L : List Nat} {maxb : Nat} {symbol : Instr → Option Nat}
  {element : Nat → List Bool → Option (Instr × List Bool)} {i : Instr} {bits rest : List Bool}

/-- A code and the extra bits after it are read back as the element (30_encoding.md rule R116). -/
theorem decodeCoded_of_encodeCoded (hL : tableSound L maxb)
    (hel : ∀ s, symbol i = some s → element s (i.extraBits ++ rest) = some (i, rest))
    (h : encodeCoded L (symbol i) i.extraBits = some bits) :
    decodeCoded L maxb element (bits ++ rest) = .ok (i, rest) := by
  obtain ⟨s, hs, hbits⟩ := Option.bind_eq_some_iff.mp h
  split at hbits
  · cases hbits
  · next hcode =>
    cases hbits
    rw [List.append_assoc, decodeCoded, decodeSym_codeBits hL hcode]
    simp only [List.drop_left' (codeBits_length _ _), hel s hs]
    rfl

theorem encodeCoded_of_decodeCoded
    (hel : ∀ {s b}, element s b = some (i, rest) → SpelledBy symbol s b i rest)
    (h : decodeCoded L maxb element bits = .ok (i, rest)) :
    i.wellFormed = true ∧ ∃ pre, encodeCoded L (symbol i) i.extraBits = some pre ∧ bits = pre ++ rest := by
  unfold decodeCoded at h
  split at h
  · cases h
  · next s l hd =>
    obtain ⟨hlen, -, hpos, -⟩ := decodeSym_eq_some hd
    obtain ⟨hs, hw, hextra⟩ := hel (orError_eq_ok h)
    refine ⟨hw, codeBits l (codeOf L s) ++ i.extraBits, ?_, ?_⟩
    · rw [encodeCoded, hs, Option.bind_some, hlen, if_neg (by omega)]
    · rw [List.append_assoc, ← hextra]
      exact decodeSym_bits hd

end

/-! ### Elements without a code -/

/-- A word of `n` bits is the field of its value. -/
theorem takeField_word (word rest : List Bool) : takeField word.length (word ++ rest) = some (bitsVal word, rest) := by
  rw [takeField_of_le (by simp), List.take_left, List.drop_left]

/-- Format D's three fields as one (30_encoding.md rule R104). -/
theorem fieldBits_dynHdr (v : Nat) :
    fieldBits 14 v = fieldBits 5 v ++ fieldBits 5 (v / 32) ++ fieldBits 4 (v / 1024) := by
  rw [fieldBits_add 10 4, fieldBits_add 5 5]
  rfl

theorem encode_dynHdrOf (v : Nat) : encode .dynHdr (dynHdrOf v) = some (fieldBits 14 v) := by
  simp only [encode, dynHdrOf, BitVec.toNat_ofNat, fieldBits_mod, fieldBits_dynHdr]

theorem decode_dynHdr (hl hd : BitVec 5) (hc : BitVec 4) (rest : List Bool) :
    decode .dynHdr (fieldBits 5 hl.toNat ++ fieldBits 5 hd.toNat ++ fieldBits 4 hc.toNat ++ rest) =
      .ok (.dynHdr hl hd hc, rest) := by
  have hword := takeField_word (fieldBits 5 hl.toNat ++ fieldBits 5 hd.toNat ++ fieldBits 4 hc.toNat) rest
  have hvalue : bitsVal (fieldBits 5 hl.toNat ++ fieldBits 5 hd.toNat ++ fieldBits 4 hc.toNat) =
      hl.toNat + 32 * (hd.toNat + 32 * hc.toNat) := by
    rw [List.append_assoc]
    simp only [bitsVal_append, bitsVal_fieldBits_toNat, fieldBits_length]
    rfl
  have hlen : (fieldBits 5 hl.toNat ++ fieldBits 5 hd.toNat ++ fieldBits 4 hc.toNat).length = 14 := by simp
  rw [hlen, hvalue] at hword
  rw [decode, hword, Option.map_some, dynHdrOf_fields hl.isLt hd.isLt]
  simp only [BitVec.ofNat_toNat, BitVec.setWidth_eq]
  rfl

theorem decode_hdr (h₀ h₁ h₂ : Bool) (rest : List Bool) :
    decode .hdr (h₀ :: h₁ :: h₂ :: rest) = .ok (headerOf (bitsVal [h₀, h₁, h₂]), rest) := by
  have hword : takeField 3 (h₀ :: h₁ :: h₂ :: rest) = some (bitsVal [h₀, h₁, h₂], rest) :=
    takeField_word [h₀, h₁, h₂] rest
  rw [decode, hword]
  rfl

theorem decode_of_withField {c : Ctx} {n : Nat} {mk : BitVec n → Instr}
    (hc : ∀ bits, decode c bits = orError .outOfBits (withField n mk bits)) (x : BitVec n) (rest : List Bool) :
    decode c (fieldBits n x.toNat ++ rest) = .ok (mk x, rest) := by
  rw [hc, withField_append]
  rfl

/-- Settles O52: the symbol is the one whose code stands there, and the extra bits are read back as the operand. -/
theorem decodeOfEncodeIsTheElement : Obligations.DecodeOfEncodeIsTheElement := by
  intro c i bits rest hc hw h
  obtain ⟨hcl, hlit, hdist⟩ := fieldRoundTrip i hw rest
  cases c with
  | hdr =>
    unfold encode at h
    dsimp only at h
    split at h
    case h_5 => cases h
    all_goals
      next f =>
        cases h
        cases f <;> exact decode_hdr _ _ _ rest
  | storedAlign left =>
    unfold encode at h
    dsimp only at h
    split at h <;> cases h
    have hword := takeField_word (List.replicate left false) rest
    rw [List.length_replicate] at hword
    rw [decode, hword]
    rfl
  | dynHdr =>
    unfold encode at h
    dsimp only at h
    split at h <;> cases h
    exact decode_dynHdr _ _ _ rest
  | storedLen | storedNlen | storedByte | dynCllen =>
    unfold encode at h
    dsimp only at h
    split at h <;> cases h
    exact decode_of_withField (fun _ => rfl) _ rest
  | clSym L => exact decodeCoded_of_encodeCoded hc hcl h
  | litLenSym L => exact decodeCoded_of_encodeCoded hc hlit h
  | distSym L => exact decodeCoded_of_encodeCoded hc hdist h
  | lenExtra s =>
    rw [encode] at h
    split at h
    · next hs =>
      obtain ⟨h257, h285, hs⟩ := hs
      cases h
      rw [decode, if_pos ⟨h257, h285⟩, hlit s hs]
      rfl
    · cases h
  | distExtra t =>
    rw [encode] at h
    split at h
    · next ht =>
      obtain ⟨h29, ht⟩ := ht
      cases h
      rw [decode, if_pos h29, hdist t ht]
      rfl
    · cases h

theorem encode_of_withField {c : Ctx} {n : Nat} {mk : BitVec n → Instr} {bits rest : List Bool} {i : Instr}
    (h : orError .outOfBits (withField n mk bits) = .ok (i, rest)) (hw : ∀ x, (mk x).wellFormed = true)
    (he : ∀ x, encode c (mk x) = some (fieldBits n x.toNat)) :
    i.wellFormed = true ∧ ∃ pre, encode c i = some pre ∧ bits = pre ++ rest := by
  obtain ⟨x, rfl, hbits⟩ := withField_eq_some (orError_eq_ok h)
  exact ⟨hw x, _, he x, hbits⟩

/-- Settles O53: the bits read are the code of the symbol found, and the fields are its operands. -/
theorem encodeOfDecodeIsTheBits : Obligations.EncodeOfDecodeIsTheBits := by
  intro c i bits rest hi h
  cases c with
  | hdr =>
    obtain ⟨v, hv, rfl, hbits⟩ := map_takeField_eq_some (orError_eq_ok h)
    interval_cases v <;> exact ⟨rfl, _, rfl, hbits⟩
  | storedAlign left =>
    obtain ⟨-, -, rfl, -⟩ := map_takeField_eq_some (f := fun _ => .storedAlign) (orError_eq_ok h)
    exact absurd rfl hi
  | dynHdr =>
    obtain ⟨v, -, rfl, hbits⟩ := map_takeField_eq_some (orError_eq_ok h)
    exact ⟨rfl, _, encode_dynHdrOf v, hbits⟩
  | storedLen | storedNlen | storedByte | dynCllen => exact encode_of_withField h (fun _ => rfl) fun _ => rfl
  | clSym L => exact encodeCoded_of_decodeCoded clElement_spelledBy h
  | litLenSym L => exact encodeCoded_of_decodeCoded litLenElement_spelledBy h
  | distSym L => exact encodeCoded_of_decodeCoded distElement_spelledBy h
  | lenExtra s =>
    rw [decode] at h
    split at h
    · next hs =>
      obtain ⟨h257, h285⟩ := hs
      obtain ⟨hsym, hw, hbits⟩ := litLenElement_spelledBy (orError_eq_ok h)
      exact ⟨hw, _, if_pos ⟨h257, h285, hsym⟩, hbits⟩
    · cases h
  | distExtra t =>
    rw [decode] at h
    split at h
    · next ht =>
      obtain ⟨hsym, hw, hbits⟩ := distElement_spelledBy (orError_eq_ok h)
      exact ⟨hw, _, if_pos ⟨ht, hsym⟩, hbits⟩
    · cases h

/-! ### The fixed tables -/

/-- In a run of `n` symbols of one length the codes count up (41_huffman.md rule R182). -/
theorem code_of_run {L A B : List Nat} {n l k : Nat} (hL : L = A ++ (List.replicate n l ++ B)) (h : k < n) :
    codeLen L (A.length + k) = l ∧ codeOf L (A.length + k) = firstCode L l + A.count l + k := by
  have hget : L[A.length + k]? = some l := by
    rw [hL, List.getElem?_append_right (by omega), List.getElem?_append_left (by simpa using h)]
    simp [h]
  have hcount : (L.take (A.length + k)).count l = A.count l + k := by
    rw [hL, List.take_length_add_append, List.take_append_of_le_length (by simpa using Nat.le_of_lt h)]
    simp [Nat.le_of_lt h]
  exact ⟨by rw [codeLen, List.getD_eq_getElem?_getD, hget, Option.getD_some],
    by rw [codeOf_of_getElem? hget, hcount, Nat.add_assoc]⟩

theorem count_fixedLitLen (l : Nat) : fixedLitLen.count l =
    (if 8 = l then 144 else 0) + (if 9 = l then 112 else 0) + (if 7 = l then 24 else 0) + (if 8 = l then 8 else 0) := by
  simp only [fixedLitLen, List.count_append, List.count_replicate, beq_iff_eq]

/-- The first fixed literal/length code of each length (30_encoding.md rule R113). -/
theorem firstCode_fixedLitLen :
    firstCode fixedLitLen 7 = 0 ∧ firstCode fixedLitLen 8 = 0x30 ∧ firstCode fixedLitLen 9 = 0x190 := by
  simp only [firstCode, count_fixedLitLen]
  decide

theorem code_fixedDistLen {t : Nat} (h : t < 30) : codeLen fixedDistLen t = 5 ∧ codeOf fixedDistLen t = t := by
  have hfirst : firstCode fixedDistLen 5 = 0 := by decide
  simpa [hfirst] using code_of_run (L := fixedDistLen) (A := []) (B := List.replicate 2 0) rfl h

/-- Five bits that begin 1111 spell 30 or 31, which no distance symbol has as its fixed code. -/
theorem decodeSym_fixedDistLen_unassigned (rest : List Bool) :
    decodeSym fixedDistLen 15 (true :: true :: true :: true :: rest) = none := by
  refine Option.eq_none_iff_forall_ne_some.mpr fun ⟨t, l⟩ h => ?_
  obtain ⟨hlen, hlt, hpos, -⟩ := decodeSym_eq_some h
  have hused : ∀ t < 32, codeLen fixedDistLen t ≠ 0 → t < 30 := by decide
  have h30 : t < 30 := hused t hlt (by omega)
  obtain ⟨h5, hcode⟩ := code_fixedDistLen h30
  have hbits := decodeSym_bits h
  rw [← hlen, h5, hcode] at hbits
  have hfour := congrArg (List.take 4) hbits
  rw [List.take_append_of_le_length (by simp)] at hfour
  have hnot : ∀ t < 30, [true, true, true, true] ≠ (codeBits 5 t).take 4 := by decide
  exact hnot t h30 hfour

/-- Settles O56: the codes of a run count up from its first one, and 1111x lies past the last one. -/
theorem fixedCodesAreTheTables : Obligations.FixedCodesAreTheTables := by
  obtain ⟨h7, h8, h9⟩ := firstCode_fixedLitLen
  refine ⟨fun s hs => ?_, fun k hk => ?_, fun k hk => ?_, fun k hk => ?_, fun t ht => code_fixedDistLen ht,
    fun rest => ?_⟩
  · have hL : fixedLitLen = [] ++ (List.replicate 144 8 ++
        (List.replicate 112 9 ++ List.replicate 24 7 ++ List.replicate 8 8)) := by
      simp only [fixedLitLen, List.append_assoc, List.nil_append]
    simpa [h8] using code_of_run hL hs
  · have hL : fixedLitLen = List.replicate 144 8 ++ (List.replicate 112 9 ++
        (List.replicate 24 7 ++ List.replicate 8 8)) := by
      simp only [fixedLitLen, List.append_assoc]
    simpa [h9, List.count_replicate, -List.reduceReplicate] using code_of_run hL hk
  · have hL : fixedLitLen = (List.replicate 144 8 ++ List.replicate 112 9) ++ (List.replicate 24 7 ++
        List.replicate 8 8) := by
      simp only [fixedLitLen, List.append_assoc]
    simpa [h7, List.count_replicate, -List.reduceReplicate] using code_of_run hL hk
  · have hL : fixedLitLen = (List.replicate 144 8 ++ List.replicate 112 9 ++ List.replicate 24 7) ++
        (List.replicate 8 8 ++ []) := by
      simp only [fixedLitLen, List.append_assoc, List.append_nil]
    simpa [h8, List.count_replicate, -List.reduceReplicate] using code_of_run hL hk
  · rw [decode, decodeCoded, decodeSym_fixedDistLen_unassigned]

/-! ### Written words -/

theorem tableSound_soleSymbol : tableSound (soleSymbol 19 17) 7 := by
  unfold tableSound
  decide

theorem tableSound_fixedDistLen : tableSound fixedDistLen 15 := by
  unfold tableSound
  decide

theorem tableSound_fixedLitLen : tableSound fixedLitLen 15 := by
  refine ⟨buildStatus_ne_overSubscribed_iff.mpr ⟨0, ?_⟩, ?_⟩
  · simp [prefixCheck, count_fixedLitLen]
  · simp only [fixedLitLen, List.mem_append, List.mem_replicate]
    omega

/-- Settles O59: format H, fields, and codes with their extra bits, as the encoder writes them. -/
theorem writtenWordsDecode : Obligations.WrittenWordsDecode := by
  obtain ⟨hlit, -, hlen, -⟩ := fixedCodesAreTheTables
  have hword : ∀ {c : Ctx} {i : Instr} {word : List Bool}, ctxSound c → i.wellFormed = true →
      encode c i = some word → decode c word = .ok (i, []) := fun hc hi h => by
    simpa using decodeOfEncodeIsTheElement _ _ _ [] hc hi h
  refine ⟨rfl, rfl, rfl, rfl, hword tableSound_soleSymbol rfl (by decide), hword tableSound_fixedLitLen rfl ?_,
    hword tableSound_fixedLitLen rfl ?_, hword tableSound_fixedDistLen rfl ?_⟩
  · obtain ⟨h8, hcode⟩ := hlit 0x41 (by omega)
    change encodeCoded fixedLitLen (some 0x41) [] = _
    rw [encodeCoded, Option.bind_some, h8, hcode]
    rfl
  · obtain ⟨h7, hcode⟩ := hlen 9 (by omega)
    change encodeCoded fixedLitLen (some 265) _ = _
    rw [encodeCoded, Option.bind_some, h7, hcode]
    rfl
  · obtain ⟨h5, hcode⟩ := code_fixedDistLen (t := 4) (by omega)
    change encodeCoded fixedDistLen (some 4) _ = _
    rw [encodeCoded, Option.bind_some, h5, hcode]
    rfl

end Sys2Proof.Machine

namespace Sys2Proof.Machine

/-! # Progress -/

/-- The computation of a step has no way to refuse. -/
theorem finish_ne_refused (s : State) (x : Except Stop State) (r : Refusal) : finish s x ≠ .refused r := by
  match x with
  | .ok _ => nofun
  | .error (.raise _) => nofun
  | .error .hold => nofun
  | .error (.fault _) => nofun

/-- No step of the core refuses, from any state: a refusal is a host move's. -/
theorem step_ne_refused (s : State) (r : Refusal) : step s ≠ .refused r := by
  rcases step_cases s with ⟨-, hr⟩ | ⟨-, -, -, hst⟩ | ⟨-, -, ⟨-, hnone⟩ | ⟨f, hf, hstep⟩⟩
  · rw [hr]
    nofun
  · rw [hst]
    nofun
  · rw [hnone]
    nofun
  · rw [hstep, stepOf_eq_rule hf]
    exact finish_ne_refused s _ r

/-- Settles O33: of the three outcomes of a step the invariant excludes the fault, and no step refuses. -/
theorem invariantStatesNeverFault : Obligations.InvariantStatesNeverFault := by
  intro s hs
  cases h : step s with
  | next t => exact ⟨t, rfl⟩
  | fault f => exact absurd h (hs.step_ne_fault f)
  | refused r => exact absurd h (step_ne_refused s r)

end Sys2Proof.Machine

namespace Sys2Proof.Machine

/-! # Huffman codes and the code space they need -/

/-- Settles O54: a code is read back as its symbol whatever follows, so a code that began another one would be read as
two symbols. -/
theorem canonicalCodesArePrefixFree : Obligations.CanonicalCodesArePrefixFree := by
  intro L maxb s t hL hs ht hne ⟨rest, hrest⟩
  have hreadS := decodeSym_codeBits hL hs rest
  have hreadT := decodeSym_codeBits hL ht []
  rw [List.append_nil, ← hrest, hreadS] at hreadT
  exact hne (congrArg Prod.fst (Option.some.inj hreadT))

/-! ### The code space of the lengths above a length -/

/-- The part of the code space that the codes longer than `l` need, in units of 2^(-MAXB). -/
def spaceAbove (L : List Nat) (maxb l : Nat) : Nat := ((L.filter (l < ·)).map fun x => 2 ^ (maxb - x)).sum

theorem spaceAbove_zero (L : List Nat) (maxb : Nat) : spaceAbove L maxb 0 = codeSpace L maxb := by
  have hused : (fun x : Nat => decide (0 < x)) = (· != 0) := by
    funext x
    cases x <;> rfl
  rw [spaceAbove, codeSpace, hused]

theorem spaceAbove_self {L : List Nat} {maxb : Nat} (h : ∀ x ∈ L, x ≤ maxb) : spaceAbove L maxb maxb = 0 := by
  have hnone : L.filter (maxb < ·) = [] := List.filter_eq_nil_iff.mpr fun x hx => by simpa using h x hx
  rw [spaceAbove, hnone]
  rfl

/-- Each of the `count[l + 1]` codes of length `l + 1` needs 2^(-(l + 1)) of the space. -/
theorem spaceAbove_succ (L : List Nat) (maxb l : Nat) :
    spaceAbove L maxb l = L.count (l + 1) * 2 ^ (maxb - (l + 1)) + spaceAbove L maxb (l + 1) := by
  induction L with
  | nil => simp [spaceAbove]
  | cons x xs ih =>
    unfold spaceAbove at ih ⊢
    rcases Nat.lt_trichotomy x (l + 1) with hx | rfl | hx
    · have h1 : ¬l < x := by omega
      have h2 : ¬l + 1 < x := by omega
      simp [h1, h2, hx.ne, ih]
    · simp [ih, Nat.succ_mul]
      omega
    · have h1 : l < x := by omega
      simp [h1, hx, hx.ne', ih]
      omega

/-- The check of 41_huffman.md rule R183 takes the space the codes need from the space that is left. -/
theorem prefixCheck_eq {L : List Nat} {k l : Nat} (left : Nat) (h : ∀ x ∈ L, x ≤ l + k) :
    prefixCheck L k l left =
      if left * 2 ^ k < spaceAbove L (l + k) l then none else some (left * 2 ^ k - spaceAbove L (l + k) l) := by
  induction k generalizing l left with
  | zero =>
    have hnone : spaceAbove L l l = 0 := spaceAbove_self h
    simp [prefixCheck, hnone]
  | succ k ih =>
    have hl : l + 1 + k = l + (k + 1) := by omega
    have hspace := spaceAbove_succ L (l + (k + 1)) l
    rw [show l + (k + 1) - (l + 1) = k by omega] at hspace
    have hleft : left * 2 ^ (k + 1) = 2 * left * 2 ^ k := by ring
    rw [prefixCheck, hspace, hleft]
    by_cases hcount : 2 * left < L.count (l + 1)
    · have hlt := Nat.mul_lt_mul_of_pos_right hcount (Nat.two_pow_pos k)
      rw [if_pos hcount, if_pos (by omega)]
    · have hle := Nat.mul_le_mul_right (2 ^ k) (Nat.le_of_not_lt hcount)
      rw [if_neg hcount, ih _ (hl ▸ h), hl, Nat.sub_mul, Nat.sub_sub]
      congr 1
      rw [eq_iff_iff]
      omega

/-! ### Statuses and degenerate sets -/

theorem codeSpace_eq_zero_iff {L : List Nat} {maxb : Nat} : codeSpace L maxb = 0 ↔ ∀ x ∈ L, x = 0 := by
  rw [codeSpace, List.sum_eq_zero_iff, List.forall_mem_map]
  simp

theorem allUnused_iff {L : List Nat} : allUnused L = true ↔ ∀ x ∈ L, x = 0 := by
  simp [allUnused]

/-- The statuses of 41_huffman.md rule R184 by the part of the code space the codes need. -/
theorem buildStatus_eq {L : List Nat} {maxb : Nat} (h : ∀ x ∈ L, x ≤ maxb) :
    buildStatus L maxb =
      if 2 ^ maxb < codeSpace L maxb then .overSubscribed
      else if codeSpace L maxb = 0 then .empty
      else if codeSpace L maxb = 2 ^ maxb then .ok
      else .incomplete := by
  have hcheck := prefixCheck_eq (k := maxb) (l := 0) 1 (by simpa using h)
  rw [Nat.one_mul, Nat.zero_add, spaceAbove_zero] at hcheck
  rw [buildStatus, hcheck]
  by_cases hover : 2 ^ maxb < codeSpace L maxb
  · simp only [if_pos hover]
  · have hfull : 2 ^ maxb - codeSpace L maxb = 0 ↔ codeSpace L maxb = 2 ^ maxb := by omega
    simp only [if_neg hover, allUnused_iff, codeSpace_eq_zero_iff, hfull]

/-- The degenerate sets of 41_huffman.md rule R185. -/
theorem degenerate_iff {L : List Nat} :
    degenerate L = true ↔ (∀ x ∈ L, x = 0) ∨ L.count 1 = 1 ∧ ∀ x ∈ L, x = 0 ∨ x = 1 := by
  have hcount : (L.filter (· != 0)).count 1 = L.count 1 := List.count_filter rfl
  have hone : L.filter (· != 0) = [1] ↔ L.count 1 = 1 ∧ ∀ x ∈ L, x = 0 ∨ x = 1 := by
    constructor
    · intro hused
      refine ⟨by rw [← hcount, hused]; rfl, fun x hx => ?_⟩
      by_cases hx0 : x = 0
      · exact .inl hx0
      · have hmem : x ∈ L.filter (· != 0) := List.mem_filter.mpr ⟨hx, by simpa using hx0⟩
        rw [hused] at hmem
        exact .inr (List.mem_singleton.mp hmem)
    · rintro ⟨hc, hall⟩
      have hones : ∀ x ∈ L.filter (· != 0), x = 1 := fun x hx => by
        obtain ⟨hxL, hx0⟩ := List.mem_filter.mp hx
        exact (hall x hxL).resolve_left (by simpa using hx0)
      have hrep := List.eq_replicate_of_mem hones
      have hlen : (L.filter (· != 0)).length = 1 := by
        rw [← hc, ← hcount, hrep, List.count_replicate_self, List.length_replicate]
      rwa [hlen] at hrep
  rw [degenerate, Bool.or_eq_true, beq_iff_eq, beq_iff_eq, hone, List.filter_eq_nil_iff]
  simp

/-- What `BuildDyn` raises, by the status (41_huffman.md rule R188). -/
theorem buildDyn_eq_some_iff {reject : Bool} {L : List Nat} {maxb : Nat} {e : Err} :
    buildDyn reject L maxb = some e ↔
      (e = .overSubscribedHuffmanCode ∧ buildStatus L maxb = .overSubscribed) ∨
      (e = .incompleteHuffmanCode ∧ reject = true ∧ buildStatus L maxb = .incomplete ∧ ¬degenerate L = true) := by
  unfold buildDyn
  cases buildStatus L maxb with
  | empty => simp
  | ok => simp
  | overSubscribed => simp [eq_comm (a := e)]
  | incomplete => simp [and_comm, eq_comm (a := e)]

section
variable {L : List Nat} {maxb : Nat} (h : ∀ x ∈ L, x ≤ maxb)
include h

theorem buildStatus_overSubscribed_iff : buildStatus L maxb = .overSubscribed ↔ 2 ^ maxb < codeSpace L maxb := by
  rw [buildStatus_eq h]
  split_ifs <;> simp [*]

theorem buildStatus_empty_iff : buildStatus L maxb = .empty ↔ ∀ x ∈ L, x = 0 := by
  have hpos := Nat.two_pow_pos maxb
  rw [buildStatus_eq h, ← codeSpace_eq_zero_iff (maxb := maxb)]
  split_ifs <;> simp <;> omega

theorem buildStatus_ok_iff : buildStatus L maxb = .ok ↔ codeSpace L maxb = 2 ^ maxb := by
  have hpos := Nat.two_pow_pos maxb
  rw [buildStatus_eq h]
  split_ifs <;> simp <;> omega

theorem buildStatus_incomplete_iff :
    buildStatus L maxb = .incomplete ↔ 0 < codeSpace L maxb ∧ codeSpace L maxb < 2 ^ maxb := by
  rw [buildStatus_eq h]
  split_ifs <;> simp <;> omega

end

/-- Settles O55: the check of R183 is an equation about the code space, and R184 and R188 follow from it. -/
theorem overSubscribedIffCodeSpaceExceeded : Obligations.OverSubscribedIffCodeSpaceExceeded := by
  intro L maxb h
  refine ⟨buildStatus_overSubscribed_iff h, buildStatus_ok_iff h, buildStatus_incomplete_iff h,
    buildStatus_empty_iff h, fun reject e => ?_⟩
  have hused : 0 < codeSpace L maxb → ¬∀ x ∈ L, x = 0 := fun hpos hall =>
    hpos.ne' (codeSpace_eq_zero_iff.mpr hall)
  rw [buildDyn_eq_some_iff, buildStatus_overSubscribed_iff h, buildStatus_incomplete_iff h, degenerate_iff, not_or]
  tauto

end Sys2Proof.Machine

namespace Sys2Proof.Machine

/-! # Blocks

The step of a state of a running call is its rule (`ruleOf`), so the statements about steps compare two readings of one
rule, and the frames are read off what an element can do (`StepResult`). -/

/-- The step of a state of a running call is its rule, whatever START is (45_stream_controller.md rules R402, R403). -/
theorem step_eq_rule_of_active {f : Fsm} {s : State} (hrst : s.pins.rst = false) (hf : s.fsm = f.code)
    (ha : f ≠ .idle ∧ f ≠ .done ∧ f ≠ .error := by decide) : step s = finish s (ruleOf f s) :=
  (step_of_busy hrst hf ha).trans (stepOf_eq_rule hf)

/-! ### The raw bytes of a STORED block -/

theorem State.ReaderInv.truncated_eq_false {s : State} (h : s.ReaderInv) : s.truncated = false := by
  cases hs : s.strict with
  | false => simp [State.truncated, hs]
  | true => simpa [State.truncated, hs] using h.strict_unread hs

/-- With an empty bit buffer `ReadBits(8)` takes the byte at `IN_POS` and leaves the buffer empty (40_bit_reader.md rules
R151 to R156). -/
theorem State.ReaderInv.readBits_byte {s : State} (h : s.ReaderInv) (h0 : s.bitCnt = 0) (hlt : s.inPos < s.srcLen) :
    readBits 8 s = .ok ((Memory.read s.src s.inPos).toNat, { s with inPos := s.inPos + 1 }) := by
  have hbuf : s.bitBuf = 0 := by
    have hb := h.bitBuf_lt
    rw [h0] at hb
    exact BitVec.eq_of_toNat_eq (by simpa using hb)
  have hstaged : s.staged 8 =
      { s with inPos := s.inPos + 1, bitBuf := (Memory.read s.src s.inPos).setWidth 32, bitCnt := 8 } := by
    simp [State.staged, State.stageLoop, State.stageByte, State.byteIn, h0, hbuf, hlt]
  have hconsumed : s.consumed 8 8 = { s with inPos := s.inPos + 1 } := by
    have hshift : (Memory.read s.src s.inPos).setWidth 32 >>> 8 = s.bitBuf := by
      rw [hbuf]
      ext k hk
      simp
    rw [State.consumed, hstaged]
    simp [State.shiftOut, hshift, h0]
  have htrunc : (s.consumed 8 8).truncated = false := by
    rw [hconsumed]
    exact h.truncated_eq_false
  have hbyte : (Memory.read s.src s.inPos).toNat < 256 := (Memory.read s.src s.inPos).isLt
  rw [readBits_eq (by omega), htrunc, hstaged, hconsumed]
  simp [hbyte]

/-- The state after the byte at `IN_POS` is copied to the output, but for the end of the block. -/
def State.copied (s : State) : State :=
  { (State.winPut (Memory.read s.src s.inPos) { s with inPos := s.inPos + 1 }).outPush (Memory.read s.src s.inPos) with
    rem := s.rem - 1 }

theorem step_storedCopy {s : State} (hs : s.Inv) (hflow : s.flowing) (hf : s.fsm = Fsm.storedCopy.code)
    (h0 : s.bitCnt = 0) (hlt : s.inPos < s.srcLen) :
    step s = .next (if s.rem - 1 = 0 then s.copied.blockEnd else s.copied) := by
  obtain ⟨hrst, hready⟩ := hflow
  rw [step_eq_rule_of_active hrst hf, ruleOf, hs.reader.readBits_byte h0 hlt, ok_bind]
  dsimp only
  rw [BitVec.ofNat_toNat, BitVec.setWidth_eq, produce_of_ready (s := { s with inPos := s.inPos + 1 }) hready]
  rfl

theorem runSteps_of_step {s t : State} (h : step s = .next t) (k : Nat) : runSteps (k + 1) s = runSteps k t := by
  rw [runSteps, h]

/-- A STORED block with `n + 1` bytes left: a step copies one, and the block goes on while `REM` is not 0. -/
theorem runSteps_storedCopy (n : Nat) {s : State} (hs : s.Inv) (hflow : s.flowing) (hf : s.fsm = Fsm.storedCopy.code)
    (h0 : s.bitCnt = 0) (hrem : s.rem.toNat = n + 1) (hsrc : s.inPos + (n + 1) ≤ s.srcLen) :
    ∃ t, runSteps (n + 1) s = .next t ∧ t.fsm = (if s.bfinal then Fsm.done else Fsm.hdr).code ∧
      t.inPos = s.inPos + (n + 1) ∧
      t.out = s.out ++ (List.range (n + 1)).map fun k => Memory.read s.src (s.inPos + k) := by
  induction n generalizing s with
  | zero =>
    have hlast : s.rem - 1 = 0 := BitVec.eq_of_toNat_eq (by rw [rem_sub_one_toNat (by omega), hrem]; rfl)
    have hstep := step_storedCopy hs hflow hf h0 (by omega)
    rw [if_pos hlast] at hstep
    exact ⟨s.copied.blockEnd, runSteps_of_step hstep 0, rfl, rfl, rfl⟩
  | succ n ih =>
    have hleft : s.copied.rem.toNat = n + 1 := (rem_sub_one_toNat (by omega)).trans (by rw [hrem]; rfl)
    have hmore : s.rem - 1 ≠ 0 := fun h => by
      rw [State.copied, h] at hleft
      cases hleft
    have hstep := step_storedCopy hs hflow hf h0 (by omega)
    rw [if_neg hmore] at hstep
    have hpos : s.copied.inPos = s.inPos + 1 := rfl
    obtain ⟨t, hrun, hfsm, hin, hout⟩ := ih (stepKeepsInvariant s _ hs hstep) hflow hf h0 hleft
      (show s.inPos + 1 + (n + 1) ≤ s.srcLen by omega)
    refine ⟨t, (runSteps_of_step hstep _).trans hrun, hfsm, by omega, ?_⟩
    have hcopied : s.copied.out = s.out ++ [Memory.read s.src s.inPos] := rfl
    have hsame : s.copied.src = s.src := rfl
    have hshift : ∀ k, s.inPos + 1 + k = s.inPos + (k + 1) := fun k => by omega
    rw [hout, hcopied, hsame, hpos, List.range_succ_eq_map (n := n + 1)]
    simp [hshift]

/-- Settles O47, by induction on the bytes left. -/
theorem storedRunIsVerbatim : Obligations.StoredRunIsVerbatim := by
  intro s hs hflow hf h0 hsrc
  have hrem : s.rem ≠ 0 := hs.stateInv hf
  obtain ⟨n, hn⟩ : ∃ n, s.rem.toNat = n + 1 :=
    Nat.exists_eq_add_one_of_ne_zero fun h => hrem (BitVec.eq_of_toNat_eq h)
  rw [hn] at hsrc ⊢
  exact runSteps_storedCopy n hs hflow hf h0 hn hsrc

/-! ### The steps of the block states -/

/-- Settles O1: the rule of the state, read for read. -/
theorem hdrStepFollowsRule : Obligations.HdrStepFollowsRule := fun _ hrst hf =>
  step_eq_rule_of_active hrst hf

/-- The drop of AlignToByte raises nothing: the pad bytes are whole bytes, so it reaches none of them (40_bit_reader.md rule
R157). -/
theorem State.ReaderInv.alignToByte_eq {s : State} (h : s.ReaderInv) :
    alignToByte s = .ok (s.shiftOut (s.bitCnt.toNat % 8)) := by
  have hle : s.bitCnt.toNat % 8 ≤ s.bitCnt.toNat := Nat.mod_le _ _
  have htrunc : (s.shiftOut (s.bitCnt.toNat % 8)).truncated = false := by
    cases hs : s.strict with
    | false => simp [State.truncated, hs]
    | true =>
      have hpads := h.strict_unread hs
      simp only [State.truncated, State.shiftOut_strict, hs, Bool.true_and, decide_eq_false_iff_not,
        State.shiftOut_bitCnt_toNat hle, State.shiftOut_padCnt]
      omega
  rw [alignToByte, dropBits_of_le hle, htrunc]
  rfl

/-- Settles O2: dropping `BIT_CNT mod 8` bits leaves whole bytes staged. -/
theorem storedAlignStepDropsToByteBoundary : Obligations.StoredAlignStepDropsToByteBoundary := by
  intro s hs hrst hf
  refine ⟨?_, ?_⟩
  · rw [step_eq_rule_of_active hrst hf, ruleOf, hs.reader.alignToByte_eq]
    rfl
  · rw [State.cur, State.shiftOut_bitCnt_toNat (Nat.mod_le _ _), State.shiftOut_inPos, State.shiftOut_pads]
    omega

/-- Settles O3: the rule of the state. -/
theorem storedLenStepFollowsRule : Obligations.StoredLenStepFollowsRule := fun _ hrst hf =>
  step_eq_rule_of_active hrst hf

theorem readBits_lt {n v : Nat} {s u : State} (hn : n ≤ 16) (h : readBits n s = .ok (v, u)) : v < 2 ^ n := by
  rw [readBits_eq hn] at h
  split at h
  · cases h
  · cases h
    exact Nat.mod_lt _ (Nat.two_pow_pos n)

/-- The 16-bit complement as a number (42_block_decoder.md rule R226). -/
theorem eq_not_ofNat_iff {a : BitVec 16} {v : Nat} (hv : v < 2 ^ 16) :
    a = ~~~BitVec.ofNat 16 v ↔ a.toNat = 65535 - v := by
  rw [← BitVec.toNat_inj, BitVec.toNat_not, BitVec.toNat_ofNat, Nat.mod_eq_of_lt hv]

/-- Settles O4: the rule of the state, whose read leaves `STORED_LEN` and `BFINAL`. -/
theorem storedNlenStepFollowsRule : Obligations.StoredNlenStepFollowsRule := by
  intro s hrst hf
  rw [step_eq_rule_of_active hrst hf, ruleOf]
  refine congrArg (finish s) (bind_congr_ok fun ⟨v, u⟩ hu => ?_)
  have hcompl := not_congr (eq_not_ofNat_iff (a := s.storedLen) (readBits_lt (by omega) hu))
  obtain ⟨r, rfl⟩ := readBits_withReader (by omega) hu
  exact if_congr hcompl rfl rfl

/-- Settles O5: the rule of the state; the read and `Produce` leave `REM` and `BFINAL`. -/
theorem storedCopyStepFollowsRule : Obligations.StoredCopyStepFollowsRule := by
  intro s hrst hf _
  have hlast : s.rem - 1 = 0 ↔ s.rem = 1 := sub_eq_zero
  rw [step_eq_rule_of_active hrst hf, ruleOf]
  refine congrArg (finish s) (bind_congr_ok fun ⟨v, u⟩ hu => bind_congr_ok fun p hp => ?_)
  obtain ⟨r, rfl⟩ := readBits_withReader (by omega) hu
  obtain ⟨-, rfl⟩ := produce_eq_ok hp
  exact congrArg Except.ok (if_congr hlast rfl rfl)

/-- Settles O7: the rule of the state, read for read. -/
theorem dynHdrStepFollowsRule : Obligations.DynHdrStepFollowsRule := fun _ hrst hf =>
  step_eq_rule_of_active hrst hf

theorem ofNat_toNat_add_one (n : BitVec 9) : BitVec.ofNat 9 (n.toNat + 1) = n + 1 := by
  simp [BitVec.ofNat_add]

/-- Settles O8: the rule of the state, whose index is inside PERM. -/
theorem dynCllenStepFollowsRule : Obligations.DynCllenStepFollowsRule := by
  intro s hrst hf hidx h19
  rw [step_eq_rule_of_active hrst hf, ruleOf]
  refine congrArg (finish s) (bind_congr_ok fun ⟨v, u⟩ hu => ?_)
  obtain ⟨r, rfl⟩ := readBits_withReader (by omega) hu
  have hlt : ¬19 ≤ (s.withReader r).idx.toNat := Nat.not_le_of_lt (Nat.lt_of_lt_of_le hidx h19)
  dsimp only
  rw [if_neg hlt, ← ofNat_toNat_add_one, apply_ite Fsm.code]
  rfl

theorem fillLens_eq_lensWith (lens : Vector (BitVec 4) 316) (v : BitVec 4) (i r : Nat) :
    fillLens lens v i r = lensWith lens v i r := by
  ext k hk
  rw [fillLens_getElem, lensWith, Vector.getElem_ofFn]

/-- Where the lengths the block transmits fit `LENS`, a run of them fits too or is refused (42_block_decoder.md rule
R240). -/
theorem putLengths_of_fits {s : State} (hT : s.lensTotal ≤ 316) (v : BitVec 4) (r : Nat) :
    putLengths v r s =
      if s.lensTotal < s.idx.toNat + r then throw (.raise .unsupportedSymbol)
      else
        pure { s with
          lens := lensWith s.lens v s.idx.toNat r
          idx := BitVec.ofNat 9 (s.idx.toNat + r)
          fsm := (if s.idx.toNat + r = s.lensTotal then Fsm.dynBuild else Fsm.dynLens).code } := by
  rw [putLengths]
  split
  · rfl
  · rw [if_neg (by omega), fillLens_eq_lensWith, apply_ite Fsm.code]

/-- Settles O9: the rule of the state, whose reads leave `LENS`, `IDX` and the counts. -/
theorem dynLensStepFollowsRule : Obligations.DynLensStepFollowsRule := by
  intro s hrst hf _ hT put
  have hput : ∀ v n r, putLengths v n (s.withReader r) = put v n (s.withReader r) := fun v n r =>
    putLengths_of_fits (s := s.withReader r) hT v n
  have hextra : ∀ n ≤ 16, ∀ (g : State → BitVec 4) (base : Nat) r, (∀ r', g (s.withReader r') = g s) →
      (readBits n (s.withReader r) >>= fun x => putLengths (g x.2) (base + x.1) x.2) =
        readBits n (s.withReader r) >>= fun x => put (g s) (base + x.1) x.2 := by
    intro n hn g base r hg
    refine bind_congr_ok fun ⟨x, w⟩ hw => ?_
    obtain ⟨r', rfl⟩ := readBits_withReader hn hw
    rw [← hg r']
    exact hput _ _ r'
  rw [step_eq_rule_of_active hrst hf, ruleOf]
  refine congrArg (finish s) (bind_congr_ok fun ⟨sym, u⟩ hu => ?_)
  obtain ⟨r, rfl⟩ := readCode_withReader (by omega) hu
  refine if_congr Iff.rfl (hput _ _ r) (if_congr Iff.rfl (if_congr Iff.rfl rfl ?_) (if_congr Iff.rfl ?_ ?_))
  · exact hextra 2 (by omega) (fun w => w.lensAt (w.idx.toNat - 1)) 3 r fun _ => rfl
  · exact hextra 3 (by omega) (fun _ => 0) 3 r fun _ => rfl
  · exact hextra 7 (by omega) (fun _ => 0) 11 r fun _ => rfl

/-- A table check raises the error of `BuildDyn` or lets the step go on (41_huffman.md rule R188). -/
theorem finish_checkTable (s : State) (reject : Bool) (L : List Nat) (maxb : Nat) (x : Except Stop State) :
    finish s (checkTable reject L maxb >>= fun _ => x) =
      (buildDyn reject L maxb).elim (finish s x) fun e => .next (s.raise e) := by
  rw [checkTable]
  cases buildDyn reject L maxb <;> rfl

theorem getD_toList_ofFn {n : Nat} (g : Fin n → BitVec 4) {i : Nat} (h : i < n) :
    (Vector.ofFn g).toList.getD i 0 = g ⟨i, h⟩ := by
  simp [List.getD_eq_getElem?_getD, h]

/-- Settles O10: the arrays are those the rule of the state cuts from `LENS`. -/
theorem dynBuildStepFollowsRule : Obligations.DynBuildStepFollowsRule := by
  intro s hrst hf hcounts
  refine ⟨s.litLenFromLens, s.distLenFromLens, fun i hi => getD_toList_ofFn _ hi, fun i hi => getD_toList_ofFn _ hi, ?_⟩
  rw [step_eq_rule_of_active hrst hf, ruleOf, if_neg (Nat.not_lt.mpr hcounts.lensTotal_le), finish_checkTable,
    finish_checkTable]
  cases buildDyn s.cfg.rejectIncomplete (natLens s.litLenFromLens) 15 with
  | some e => rfl
  | none => cases buildDyn s.cfg.rejectIncomplete (natLens s.distLenFromLens) 15 <;> rfl

/-- Settles O6: the rules of the two states. -/
theorem setupStepsReadNoBits : Obligations.SetupStepsReadNoBits := by
  refine fun s hrst => ⟨fun hf => step_eq_rule_of_active hrst hf, fun hf => ?_⟩
  rw [step_eq_rule_of_active hrst hf, ruleOf, finish_checkTable]
  cases buildDyn s.cfg.rejectIncomplete s.clTable 7 <;> rfl

/-! ### The elements of the block states complete -/

theorem consume_of_not_truncated {m n : Nat} {s : State} (ht : (s.consumed m n).truncated = false) (hm : m ≤ 16)
    (hn : n ≤ m := by omega) : consume m n s = .ok (s.consumed m n) := by
  rw [consume_eq hm hn, ht]
  rfl

theorem consumeCode_of_not_truncated {L : List Nat} {maxb sym : Nat} {s : State} (h0 : codeLen L sym ≠ 0)
    (ht : (s.consumed maxb (codeLen L sym)).truncated = false) (hm : maxb ≤ 16) (hL : codeLen L sym ≤ maxb) :
    consumeCode L maxb sym s = .ok (s.consumed maxb (codeLen L sym)) := by
  rw [consumeCode_eq hm hL, if_neg h0, ht]
  rfl

theorem State.blockEnd_eq (s : State) : s.blockEnd = s.goto (if s.bfinal then .done else .hdr) := rfl

/-- Settles O16: with its two reads done a header writes its registers, and HDR.RESERVED raises. -/
theorem headerElementsComplete : Obligations.HeaderElementsComplete := by
  intro s f hf h1 h2
  have hread : readHeader s = .ok ((s.consumed 1 1).consumed 2 2) := by
    rw [readHeader, consume_of_not_truncated h1 (by omega), ok_bind, consume_of_not_truncated h2 (by omega)]
  have hheader : ∀ b g, header f b g s =
      .next { (s.consumed 1 1).consumed 2 2 with bfinal := f, btype := b, fsm := g.code } := fun b g => by
    rw [header, inState_of hf, hread]
    rfl
  refine ⟨hheader 0 .storedAlign, hheader 1 .fixedSetup, hheader 2 .dynHdr, ?_⟩
  rw [exec, execHdrReserved, inState_of hf, hread]
  rfl

/-- Settles O17: each element after its read. -/
theorem storedElementsComplete : Obligations.StoredElementsComplete := by
  refine fun s => ⟨fun hf ht => ?_, fun len hf ht => ?_, fun nlen hf ht => ?_, fun b hf _ ho ht => ?_⟩
  · rw [exec, execStoredAlign, inState_of hf, alignToByte, dropBits_of_le (Nat.mod_le _ _), ht]
    rfl
  · rw [exec, execStoredLen, inState_of hf, consume_of_not_truncated ht (by omega)]
    rfl
  · rw [exec, execStoredNlen, inState_of hf, consume_of_not_truncated ht (by omega), ok_bind]
    split
    · rfl
    · split
      · rw [State.blockEnd_eq, State.consumed_bfinal]
        rfl
      · rfl
  · have hready : (s.consumed 8 8).pins.outReady = true := by rw [State.consumed_pins, ho]
    have hlast : s.rem - 1 = 0 ↔ s.rem = 1 := sub_eq_zero
    rw [exec, execStoredByte, inState_of hf, consume_of_not_truncated ht (by omega), ok_bind, produce_of_ready hready]
    refine congrArg Host.Outcome.next (if_ctx_congr hlast (fun h1 => ?_) fun _ => rfl)
    rw [State.blockEnd_eq, h1]
    simp [State.goto]

/-- Settles O18: each element after its reads. -/
theorem dynamicHeaderElementsComplete : Obligations.DynamicHeaderElementsComplete := by
  refine fun s => ⟨fun hl hd hc hf h1 h2 h3 => ?_, fun v hf hidx h19 ht => ?_⟩
  · rw [exec, execDynHdr, inState_of hf, consume_of_not_truncated h1 (by omega), ok_bind,
      consume_of_not_truncated h2 (by omega), ok_bind, consume_of_not_truncated h3 (by omega), ok_bind]
    split <;> rfl
  · have hlt : s.idx.toNat < perm.length := Nat.lt_of_lt_of_le hidx h19
    have hperm : perm[s.idx.toNat]? = some (perm.getD s.idx.toNat 0) := by
      rw [List.getD_eq_getElem _ _ hlt, List.getElem?_eq_getElem hlt]
    rw [exec, execDynCllen, inState_of hf, consume_of_not_truncated ht (by omega), ok_bind, hperm,
      ofNat_toNat_add_one, apply_ite Fsm.code]
    rfl

theorem State.consumed_zero (s : State) : s.consumed 0 0 = s := by
  rw [State.consumed, State.staged_of_le (Nat.zero_le _)]
  simp [State.shiftOut]

/-- `LENS` after `LENS[i .. i+r-1] <- v`, read at any index (42_block_decoder.md rule R235). -/
theorem State.lensAt_of_lensWith {s t : State} {v : BitVec 4} {i r : Nat} (h : t.lens = lensWith s.lens v i r)
    (h316 : i + r ≤ 316) (k : Nat) : t.lensAt k = if i ≤ k ∧ k < i + r then v else s.lensAt k := by
  rw [State.lensAt, h, lensWith]
  by_cases hk : k < 316
  · rw [getD_toList_ofFn _ hk, State.lensAt]
    simp [List.getD_eq_getElem?_getD, hk]
  · have hout : ¬(i ≤ k ∧ k < i + r) := by omega
    simp [State.lensAt, List.getD_eq_getElem?_getD, hk, hout]

/-- The code-length elements in DYN_LENS: the code, the `e` extra bits, then the run of lengths. -/
theorem exec_codeLength {i : Instr} {s : State} {sym e r : Nat} {v : BitVec 4}
    (hi : (∃ n : BitVec 4, i = .clLen n ∧ sym = n.toNat ∧ e = 0 ∧ r = 1 ∧ v = n) ∨
      (i = .clRep16 r ∧ sym = 16 ∧ e = 2 ∧ s.idx ≠ 0 ∧ v = s.lensAt (s.idx.toNat - 1)) ∨
      (i = .clZero17 r ∧ sym = 17 ∧ e = 3 ∧ v = 0) ∨ (i = .clZero18 r ∧ sym = 18 ∧ e = 7 ∧ v = 0))
    (hf : s.fsm = Fsm.dynLens.code) (h0 : codeLen s.clTable sym ≠ 0)
    (ht : (s.consumed 7 (codeLen s.clTable sym)).truncated = false)
    (he : ((s.consumed 7 (codeLen s.clTable sym)).consumed e e).truncated = false) :
    exec i s = finish s (putLengths v r ((s.consumed 7 (codeLen s.clTable sym)).consumed e e)) := by
  have hcode := consumeCode_of_not_truncated h0 ht (by omega) (codeLen_clTable_le s sym)
  obtain ⟨n, rfl, rfl, rfl, rfl, rfl⟩ | ⟨rfl, rfl, rfl, hidx, rfl⟩ | ⟨rfl, rfl, rfl, rfl⟩ | ⟨rfl, rfl, rfl, rfl⟩ := hi
  · rw [exec, execClLen, inState_of hf, hcode, ok_bind, State.consumed_zero]
  · rw [exec, execClRep16, inState_of hf, hcode, ok_bind, if_neg hidx, consume_of_not_truncated he (by omega), ok_bind]
  · rw [exec, execClZero17, inState_of hf, hcode, ok_bind, consume_of_not_truncated he (by omega), ok_bind]
  · rw [exec, execClZero18, inState_of hf, hcode, ok_bind, consume_of_not_truncated he (by omega), ok_bind]

/-- Settles O19: the four elements differ in their reads and end in one run of lengths. -/
theorem codeLengthElementsComplete : Obligations.CodeLengthElementsComplete := by
  intro i s sym e r v hi hf h0 hT hr ht he
  have hexec := exec_codeLength hi hf h0 ht he
  obtain ⟨q, hq⟩ : ∃ q, (s.consumed 7 (codeLen s.clTable sym)).consumed e e = s.withReader q :=
    ⟨_, by rw [State.consumed_eq_withReader e, State.consumed_eq_withReader 7]; rfl⟩
  have hfits : ¬(s.withReader q).lensTotal < (s.withReader q).idx.toNat + r := Nat.not_lt.mpr hr
  rw [hq, putLengths_of_fits (s := s.withReader q) hT, if_neg hfits] at hexec
  rw [hq]
  intro t
  have hlens := State.lensAt_of_lensWith (s := s) (t := t) rfl (Nat.le_trans hr hT)
  exact ⟨hexec, fun k h1 h2 => by rw [hlens, if_pos ⟨h1, h2⟩], fun k hk => by rw [hlens, if_neg (by omega)]⟩

/-! ### What the elements of the block states leave unchanged -/

/-- An element holds, raises, or writes after its reads, and the reads write the bit reader alone. -/
theorem exec_cases {i : Instr} {s t : State} (h : exec i s = .next t) :
    t = s ∨ (∃ e, t = s.raise e) ∨ ∃ r f, Effect (some i) f (s.withReader r) t := by
  obtain ⟨k, u, f, -, hread, -, heffect⟩ | hraise | hhold := exec_stepResult h
  · obtain ⟨r, rfl⟩ := hread.exists_reader
    exact .inr (.inr ⟨r, f, heffect⟩)
  · exact .inr (.inl hraise)
  · exact .inl hhold

/-- Settles O25: HDR.RESERVED only raises, the other headers write what `header` writes. -/
theorem headerElementsFrame : Obligations.HeaderElementsFrame := by
  intro i s t f hi h
  obtain rfl | ⟨e, rfl⟩ | ⟨r, g, heffect⟩ := exec_cases h
  · exact ⟨rfl, fun _ => ⟨rfl, rfl⟩, fun _ => rfl⟩
  · exact ⟨rfl, fun _ => ⟨rfl, rfl⟩, fun _ => rfl⟩
  obtain rfl | rfl | rfl | rfl := hi
  all_goals
    cases heffect with
    | header hheader => exact ⟨rfl, fun hres => by cases hres <;> simp at hheader, fun _ => rfl⟩
    | _ => contradiction

/-- Settles O26: each element writes its own register and `FSM`. -/
theorem storedFieldElementsFrame : Obligations.StoredFieldElementsFrame := by
  intro i s t hi h
  obtain rfl | ⟨e, rfl⟩ | ⟨r, g, heffect⟩ := exec_cases h
  · exact ⟨rfl, absurd rfl, absurd rfl, fun _ => rfl⟩
  · exact ⟨rfl, absurd rfl, absurd rfl, fun _ => rfl⟩
  obtain rfl | ⟨v, rfl⟩ | ⟨v, rfl⟩ := hi
  · cases heffect with
    | storedAlign => exact ⟨rfl, absurd rfl, absurd rfl, fun _ => rfl⟩
    | header hheader => simp at hheader
    | _ => contradiction
  · cases heffect with
    | storedLen => exact ⟨rfl, fun _ => ⟨v, rfl⟩, absurd rfl, fun _ => rfl⟩
    | header hheader => simp at hheader
    | _ => contradiction
  · cases heffect with
    | storedEmpty => exact ⟨rfl, absurd rfl, absurd rfl, fun _ => rfl⟩
    | storedNlen => exact ⟨rfl, absurd rfl, fun _ => ⟨v, rfl⟩, fun _ => rfl⟩
    | header hheader => simp at hheader
    | _ => contradiction

theorem litLenSymbol_lit_lt {b : Byte} {sym : Nat} (h : (Instr.lit b).litLenSymbol = some sym) : sym < 256 := by
  cases h
  exact b.isLt

/-- Settles O27: of the window only `WinPut` writes, at `WPOS`. -/
theorem byteElementsFrame : Obligations.ByteElementsFrame := by
  intro i s t b hi h
  obtain rfl | ⟨e, rfl⟩ | ⟨r, g, heffect⟩ := exec_cases h
  · exact ⟨rfl, fun _ => rfl, fun _ _ => rfl⟩
  · exact ⟨rfl, fun _ => rfl, fun _ _ => rfl⟩
  have hwin : ∀ a, a ≠ s.wpos.toNat → Memory.read (Memory.write s.win s.wpos.toNat b) a = Memory.read s.win a :=
    fun a ha => Memory.read_write_other _ b ha
  obtain rfl | rfl := hi
  · cases heffect with
    | storedByte => exact ⟨rfl, nofun, hwin⟩
    | storedLast => exact ⟨rfl, nofun, hwin⟩
    | header hheader => simp at hheader
    | _ => contradiction
  · cases heffect with
    | lit => exact ⟨rfl, fun _ => rfl, hwin⟩
    | header hheader => simp at hheader
    | lenSym hsym h257 => exact absurd (litLenSymbol_lit_lt hsym) (by omega)
    | lenExtra hsym h257 => exact absurd (litLenSymbol_lit_lt hsym) (by omega)
    | _ => contradiction

theorem symbols_of_clSymbol {i : Instr} (h : i.clSymbol ≠ none) : i.litLenSymbol = none ∧ i.distSymbol = none := by
  cases i
  case clLen => exact ⟨rfl, rfl⟩
  case clRep16 => exact ⟨rfl, rfl⟩
  case clZero17 => exact ⟨rfl, rfl⟩
  case clZero18 => exact ⟨rfl, rfl⟩
  all_goals exact absurd rfl h

/-- Settles O28: the headers write their registers, and a run of lengths lies between the old `IDX` and the new one. -/
theorem dynamicElementsFrame : Obligations.DynamicElementsFrame := by
  refine fun i s t => ⟨fun hi h => ?_, fun hi h => ?_⟩
  · obtain rfl | ⟨e, rfl⟩ | ⟨r, g, heffect⟩ := exec_cases h
    · exact ⟨rfl, by simp, fun _ => rfl⟩
    · exact ⟨rfl, by simp, fun _ => rfl⟩
    obtain ⟨hl, hd, hc, rfl⟩ | ⟨v, rfl⟩ := hi
    · cases heffect with
      | dynHdr => exact ⟨rfl, fun _ => ⟨hl, hd, hc, rfl⟩, fun _ => rfl⟩
      | header hheader => simp at hheader
      | _ => contradiction
    · cases heffect with
      | dynCllen => exact ⟨rfl, fun hne => by simp [State.withReader] at hne, fun _ => rfl⟩
      | header hheader => simp at hheader
      | _ => contradiction
  · obtain rfl | ⟨e, rfl⟩ | ⟨r, g, heffect⟩ := exec_cases h
    · exact ⟨rfl, fun _ _ => rfl, fun _ => rfl⟩
    · exact ⟨rfl, fun _ _ => rfl, fun _ => rfl⟩
    obtain ⟨hlit, hdist⟩ := symbols_of_clSymbol hi
    cases heffect with
    | @codeLengths _ _ v n _ _ h316 =>
      have h316 : s.idx.toNat + n ≤ 316 := h316
      have hidx : (BitVec.ofNat 9 (s.idx.toNat + n)).toNat = s.idx.toNat + n := by
        rw [BitVec.toNat_ofNat]
        omega
      refine ⟨rfl, fun k hk => ?_, fun _ => rfl⟩
      have hk : k < s.idx.toNat ∨ s.idx.toNat + n ≤ k := hidx ▸ hk
      rw [State.lensAt_of_lensWith (s := s) (fillLens_eq_lensWith s.lens v s.idx.toNat n) h316, if_neg (by omega)]
    | header hheader => obtain ⟨rfl, -⟩ | ⟨rfl, -⟩ | ⟨rfl, -⟩ := hheader <;> exact absurd rfl hi
    | lenSym hsym => cases hlit.symm.trans hsym
    | lenExtra hsym => cases hlit.symm.trans hsym
    | distSym hsym => cases hdist.symm.trans hsym
    | distExtra hsym => cases hdist.symm.trans hsym
    | _ => exact absurd rfl hi

end Sys2Proof.Machine

namespace Sys2Proof.Machine

/-! # The symbol loop

The step of a state of the loop is its rule (`ruleOf`) and an element is the step of the state it stands in, so what is
left is that reads write the bit reader alone and that a drop which does not raise goes through. -/

/-! ### The steps of the loop -/

/-- Settles O11: the rule of the state, whose read leaves `BFINAL`. -/
theorem symStepFollowsRule : Obligations.SymStepFollowsRule := by
  intro s hrst hf
  rw [step_eq_rule_of_active hrst hf, ruleOf]
  refine congrArg (finish s) (bind_congr_ok fun ⟨sym, u⟩ hu => ?_)
  obtain ⟨r, rfl⟩ := readCode_withReader (by omega) hu
  rfl

/-- Settles O12: the rule of the state, whose read leaves `LSYM`. -/
theorem lenExtraStepFollowsRule : Obligations.LenExtraStepFollowsRule := by
  intro s hrst hf h257 h285
  have hext := lextOf_le s.lsym.toNat
  rw [step_eq_rule_of_active hrst hf, ruleOf, if_pos ⟨h257, h285⟩]
  refine congrArg (finish s) (bind_congr_ok fun ⟨x, u⟩ hu => ?_)
  obtain ⟨r, rfl⟩ := readBits_withReader (by omega) hu
  rfl

/-- Settles O13: the rule of the state, read for read. -/
theorem distSymStepFollowsRule : Obligations.DistSymStepFollowsRule := fun _ hrst hf =>
  step_eq_rule_of_active hrst hf

/-- Settles O14: the rule of the state, whose read leaves `DSYM`, `MLEN` and `HIST_LEN`. -/
theorem distExtraStepFollowsRule : Obligations.DistExtraStepFollowsRule := by
  intro s hrst hf h29
  have hext := dextOf_le h29
  rw [step_eq_rule_of_active hrst hf, ruleOf, if_pos h29]
  refine congrArg (finish s) (bind_congr_ok fun ⟨y, u⟩ hu => ?_)
  obtain ⟨r, rfl⟩ := readBits_withReader (by omega) hu
  rfl

/-! ### The elements of the loop complete -/

/-- Settles O20: the code is consumed, then the byte is produced or the block ends. -/
theorem literalAndEobComplete : Obligations.LiteralAndEobComplete := by
  refine fun s hf => ⟨fun b hready h0 ht => ?_, fun h0 ht => ?_⟩
  · have hready : (s.consumed 15 (codeLen s.litTable b.toNat)).pins.outReady = true := by
      rw [State.consumed_pins, hready]
    rw [exec, execLit, inState_of hf, consumeCode_of_not_truncated h0 ht (by omega) (codeLen_litTable_le s _), ok_bind,
      produce_of_ready hready, finish_ok]
  · rw [exec, execEob, inState_of hf, consumeCode_of_not_truncated h0 ht (by omega) (codeLen_litTable_le s _), ok_bind,
      State.blockEnd_eq, State.consumed_bfinal]
    rfl

/-- A symbol without a meaning raises whether the table gives it a code or not (41_huffman.md rule R190, 43_symbols.md
rules R278, R340). -/
theorem finish_consumeCode_throw {L : List Nat} {sym : Nat} {s : State} (hL : codeLen L sym ≤ 15)
    (h : codeLen L sym = 0 ∨ (s.consumed 15 (codeLen L sym)).truncated = false) :
    finish s (consumeCode L 15 sym s >>= fun _ => throw (.raise .unsupportedSymbol)) =
      .next (s.raise .unsupportedSymbol) := by
  rw [consumeCode_eq (by omega) hL]
  split
  · rfl
  · next h0 =>
    rw [h.resolve_left h0]
    rfl

/-- Settles O21: the four symbols differ in their table and their state alone. -/
theorem meaninglessSymbolsRaise : Obligations.MeaninglessSymbolsRaise := by
  intro i s L sym hi h
  obtain ⟨rfl, hf, rfl, rfl⟩ | ⟨rfl, hf, rfl, rfl⟩ | ⟨rfl, hf, rfl, rfl⟩ | ⟨rfl, hf, rfl, rfl⟩ := hi
  · exact (inState_of hf _).trans (finish_consumeCode_throw (codeLen_litTable_le s 286) h)
  · exact (inState_of hf _).trans (finish_consumeCode_throw (codeLen_litTable_le s 287) h)
  · exact (inState_of hf _).trans (finish_consumeCode_throw (codeLen_distTable_le s 30) h)
  · exact (inState_of hf _).trans (finish_consumeCode_throw (codeLen_distTable_le s 31) h)

/-- Settles O22: the 29 elements are one meaning with the tables of 93_implementation_defined.md G3. -/
theorem lengthElementsComplete : Obligations.LengthElementsComplete := by
  intro i s sym hi h257 h285
  rw [exec_of_lengthSymbol hi h257 h285, lengthElement]
  refine ⟨fun hf h0 ht => ?_, fun hf hs ht => ?_⟩
  · rw [if_pos hf, consumeCode_of_not_truncated h0 ht (by omega) (codeLen_litTable_le s sym)]
    rfl
  · have hsym : s.fsm ≠ Fsm.sym.code := by rw [hf]; decide
    have hext := lextOf_le sym
    rw [if_neg hsym, if_pos ⟨hf, hs⟩, consume_of_not_truncated ht (by omega)]
    rfl

/-- Settles O23: the 30 elements are one meaning with the tables of 93_implementation_defined.md G3. -/
theorem distanceElementsComplete : Obligations.DistanceElementsComplete := by
  intro i s d hi h29
  rw [exec_of_distSymbol hi h29, distElement]
  refine ⟨fun hf h0 ht => ?_, fun hf hs ht => ?_⟩
  · rw [if_pos hf, consumeCode_of_not_truncated h0 ht (by omega) (codeLen_distTable_le s d)]
    rfl
  · have hsym : s.fsm ≠ Fsm.distSym.code := by rw [hf]; decide
    have hext := dextOf_le h29
    rw [if_neg hsym, if_pos ⟨hf, hs⟩, consume_of_not_truncated ht (by omega), ok_bind]
    refine ⟨fun hin => ?_, fun hout => ?_⟩
    · rw [if_neg (Nat.not_lt.mpr hin)]
      rfl
    · rw [if_pos hout]
      rfl

/-! ### What the elements of the loop leave unchanged -/

/-- No element is of both alphabets of the loop (30_encoding.md rules R110, R111). -/
theorem distSymbol_eq_none_of_litLenSymbol {i : Instr} {sym : Nat} (h : i.litLenSymbol = some sym) :
    i.distSymbol = none := by
  cases i
  all_goals cases h
  all_goals rfl

/-- Settles O29: of these elements only a length element writes more than `FSM`, and it one register in each state. -/
theorem lengthElementsFrame : Obligations.LengthElementsFrame := by
  intro i s t sym hi h256 h
  obtain ⟨k, u, f, -, hread, hf, heffect⟩ | ⟨e, rfl⟩ | rfl := exec_stepResult h
  · obtain ⟨r, rfl⟩ := hread.exists_reader
    cases heffect with
    | eob => exact ⟨rfl, absurd rfl, absurd rfl, fun _ => rfl⟩
    | lenSym hsym h257 h285 =>
      cases hi.symm.trans hsym
      exact ⟨rfl, fun _ => ⟨h257, h285, hf⟩, absurd rfl, fun _ => rfl⟩
    | lenExtra hsym h257 h285 =>
      cases hi.symm.trans hsym
      exact ⟨rfl, absurd rfl, fun _ => ⟨h257, h285, hf⟩, fun _ => rfl⟩
    | lit => exact absurd (litLenSymbol_lit_lt hi) (by omega)
    | header hheader => obtain ⟨rfl, -⟩ | ⟨rfl, -⟩ | ⟨rfl, -⟩ := hheader <;> cases hi
    | codeLengths hcl => cases (symbols_of_clSymbol hcl).1.symm.trans hi
    | distSym hdist => cases (distSymbol_eq_none_of_litLenSymbol hi).symm.trans hdist
    | distExtra hdist => cases (distSymbol_eq_none_of_litLenSymbol hi).symm.trans hdist
    | _ => cases hi
  · exact ⟨rfl, absurd rfl, absurd rfl, fun _ => rfl⟩
  · exact ⟨rfl, absurd rfl, absurd rfl, fun _ => rfl⟩

/-- Settles O30: DIST_SYM writes `DSYM`, DIST_EXTRA writes `MDIST` and `REM`, and a raise writes none of them. -/
theorem distanceElementsFrame : Obligations.DistanceElementsFrame := by
  intro i s t d hi h
  obtain ⟨k, u, f, -, hread, hf, heffect⟩ | ⟨e, rfl⟩ | rfl := exec_stepResult h
  · obtain ⟨r, rfl⟩ := hread.exists_reader
    cases heffect with
    | distSym hdist h29 =>
      cases hi.symm.trans hdist
      exact ⟨rfl, fun _ => ⟨h29, hf⟩, fun hne => hne.elim (absurd rfl) (absurd rfl), fun _ => rfl⟩
    | distExtra hdist h29 =>
      cases hi.symm.trans hdist
      exact ⟨rfl, absurd rfl, fun _ => ⟨h29, hf⟩, fun _ => rfl⟩
    | header hheader => obtain ⟨rfl, -⟩ | ⟨rfl, -⟩ | ⟨rfl, -⟩ := hheader <;> cases hi
    | codeLengths hcl => cases (symbols_of_clSymbol hcl).2.symm.trans hi
    | lenSym hsym => cases (distSymbol_eq_none_of_litLenSymbol hsym).symm.trans hi
    | lenExtra hsym => cases (distSymbol_eq_none_of_litLenSymbol hsym).symm.trans hi
    | _ => cases hi
  · exact ⟨rfl, absurd rfl, fun hne => hne.elim (absurd rfl) (absurd rfl), fun _ => rfl⟩
  · exact ⟨rfl, absurd rfl, fun hne => hne.elim (absurd rfl) (absurd rfl), fun _ => rfl⟩

end Sys2Proof.Machine

namespace Sys2Proof.Machine

/-! # The sliding window

`HIST_LEN` bytes of the window are the last bytes of the output (`State.WindowInv`), so a back-reference copies bytes of
the output, and what the window held before the call is never read. -/

/-! ### Reading back -/

/-- The address of rule R371 as a number; a distance of 32768 wraps to the cell that is written next. -/
theorem State.winAddr_eq (s : State) {d : BitVec 16} (hd : d.toNat ≤ 32768) :
    s.winAddr d = (s.wpos.toNat + 32768 - d.toNat) % 32768 := by
  have hpos := s.wpos.isLt
  rw [State.winAddr, BitVec.toNat_sub, BitVec.toNat_setWidth]
  omega

/-- Settles O15: the rule of the state, whose `Produce` leaves `REM`. -/
theorem copyStepFollowsRule : Obligations.CopyStepFollowsRule := by
  intro s hrst hf _ _ hdist
  have hlast : s.rem - 1 = 0 ↔ s.rem = 1 := sub_eq_zero
  rw [step_eq_rule_of_active hrst hf, ruleOf, State.winBack, s.winAddr_eq hdist]
  refine congrArg (finish s) (bind_congr_ok fun p hp => ?_)
  obtain ⟨-, rfl⟩ := produce_eq_ok hp
  simp only [State.outPush_rem, State.winPut_rem, hlast, apply_ite Fsm.code]

/-- Settles O45: of the history the byte `d` back is the one with `d - 1` bytes after it. -/
theorem winBackIsTheByteProducedDAgo : Obligations.WinBackIsTheByteProducedDAgo := by
  intro s d hs h1 hd
  have hhist := hs.window.histLen_eq
  have hbyte := hs.window.history (d.toNat - 1) (by omega)
  have hidx : s.out.length - 1 - (d.toNat - 1) = s.out.length - d.toNat := by omega
  have haddr : (s.out.length - d.toNat) % 32768 = s.winAddr d := by
    rw [s.winAddr_eq (by omega), hs.window.wpos_eq]
    omega
  rw [hidx, haddr] at hbyte
  rw [State.winBack, hbyte, List.getD_eq_getElem?_getD, List.getElem?_eq_getElem (by omega), Option.getD_some]

/-! ### A back-reference -/

/-- The state after the byte `MDIST` back is copied. -/
def State.copiedBack (s : State) : State :=
  { (s.winPut (s.winBack s.mdist)).outPush (s.winBack s.mdist) with
    rem := s.rem - 1, fsm := if s.rem - 1 = 0 then Fsm.sym.code else Fsm.copy.code }

theorem step_copy {s : State} (hflow : s.flowing) (hf : s.fsm = Fsm.copy.code) : step s = .next s.copiedBack := by
  obtain ⟨hrst, hready⟩ := hflow
  rw [step_eq_rule_of_active hrst hf, ruleOf, produce_of_ready hready]
  rfl

theorem State.copiedBack_rem {n : Nat} {s : State} (h : s.rem.toNat = n + 1) : s.copiedBack.rem.toNat = n :=
  (rem_sub_one_toNat (by omega)).trans (by rw [h]; rfl)

/-- The copy goes on while `REM` is not 0. -/
theorem State.copiedBack_fsm {n : Nat} {s : State} (h : s.rem.toNat = n + 1) :
    s.copiedBack.fsm = if n = 0 then Fsm.sym.code else Fsm.copy.code := by
  have hlast : s.rem - 1 = 0 ↔ n = 0 := by
    rw [← BitVec.toNat_inj]
    exact Eq.congr_left (State.copiedBack_rem h)
  exact if_congr hlast rfl rfl

/-- The byte copied is the one `MDIST` back in the output (44_sliding_window.md rule R373). -/
theorem State.Inv.copiedBack_out {s : State} (hs : s.Inv) (hf : s.fsm = Fsm.copy.code) :
    s.copiedBack.out = s.out ++ [s.out.getD (s.out.length - s.mdist.toNat) 0] := by
  obtain ⟨-, -, -, h1, hdist⟩ := hs.stateInv hf
  rw [List.getD_eq_getElem?_getD, winBackIsTheByteProducedDAgo s s.mdist hs h1 hdist]
  rfl

/-- A back-reference with `n + 1` bytes left. -/
theorem runSteps_copy (n : Nat) {s : State} (hs : s.Inv) (hflow : s.flowing) (hf : s.fsm = Fsm.copy.code)
    (hrem : s.rem.toNat = n + 1) :
    ∃ t, runSteps (n + 1) s = .next t ∧ t.fsm = Fsm.sym.code ∧ t.out = copyBytes s.mdist.toNat (n + 1) s.out := by
  induction n generalizing s with
  | zero =>
    exact ⟨s.copiedBack, runSteps_of_step (step_copy hflow hf) 0, State.copiedBack_fsm hrem, hs.copiedBack_out hf⟩
  | succ n ih =>
    have hstep := step_copy hflow hf
    have hs' := stepKeepsInvariant s _ hs hstep
    obtain ⟨t, hrun, hfsm, hout⟩ := ih hs' hflow (State.copiedBack_fsm hrem) (State.copiedBack_rem hrem)
    refine ⟨t, (runSteps_of_step hstep _).trans hrun, hfsm, ?_⟩
    rw [hout, hs.copiedBack_out hf]
    rfl

/-- Settles O46, by induction on the bytes left. -/
theorem copyRunIsByteByByte : Obligations.CopyRunIsByteByByte := by
  intro s hs hflow hf
  obtain ⟨-, h1, -⟩ := hs.stateInv hf
  obtain ⟨n, hn⟩ : ∃ n, s.rem.toNat = n + 1 := Nat.exists_eq_add_one_of_ne_zero (by omega)
  rw [hn]
  exact runSteps_copy n hs hflow hf hn

end Sys2Proof.Machine

namespace Sys2Proof.Machine

/-! # Two runs of one call

What a call cannot observe is a `Leftover`: the lookup widths, and the arrays and the window as the call before left
them.  Two runs of a call are in `s` and in `s.withLeftover h`; they read the same bits and write the same registers,
because each step reads of the leftover only what this call has written (`Leftover.Live`). -/

/-- What START leaves as it is and the host cannot observe: the lookup widths, the arrays and the window
(70_reset_and_hazards.md rule R493). -/
structure Leftover where
  lbits : Nat
  dbits : Nat
  clbits : Nat
  litLen : Vector (BitVec 4) 288
  distLen : Vector (BitVec 4) 32
  clLen : Vector (BitVec 3) 19
  lens : Vector (BitVec 4) 316
  win : List Host.Cell

def State.leftover (s : State) : Leftover :=
  ⟨s.cfg.lbits, s.cfg.dbits, s.cfg.clbits, s.litLen, s.distLen, s.clLen, s.lens, s.win⟩

/-- `s` with another leftover. -/
def State.withLeftover (h : Leftover) (s : State) : State :=
  { s with
    cfg := { s.cfg with lbits := h.lbits, dbits := h.dbits, clbits := h.clbits }
    litLen := h.litLen, distLen := h.distLen, clLen := h.clLen, lens := h.lens, win := h.win }

/-! ### Computations in lockstep -/

/-- Both computations stop alike, or both end and their results are related. -/
inductive Lockstep {α β : Type} (R : α → β → Prop) : Except Stop α → Except Stop β → Prop
  | ok {a : α} {b : β} (h : R a b) : Lockstep R (.ok a) (.ok b)
  | error (e : Stop) : Lockstep R (.error e) (.error e)

theorem Lockstep.bind {α β α' β' : Type} {R : α → β → Prop} {R' : α' → β' → Prop} {x : Except Stop α}
    {y : Except Stop β} {k : α → Except Stop α'} {k' : β → Except Stop β'} (h : Lockstep R x y)
    (hk : ∀ a b, R a b → Lockstep R' (k a) (k' b)) : Lockstep R' (x >>= k) (y >>= k') := by
  cases h with
  | ok h => exact hk _ _ h
  | error e => exact .error e

theorem Lockstep.ite {α β : Type} {R : α → β → Prop} {c : Prop} [Decidable c] {x x' : Except Stop α}
    {y y' : Except Stop β} (h : Lockstep R x y) (h' : ¬c → Lockstep R x' y') :
    Lockstep R (if c then x else x') (if c then y else y') := by
  split
  · exact h
  · next hc => exact h' hc

theorem Lockstep.checkTable {α β : Type} {R : α → β → Prop} {reject : Bool} {L L' : List Nat} {maxb : Nat}
    {x : Except Stop α} {y : Except Stop β} (hL : L' = L) (h : Lockstep R x y) :
    Lockstep R (Machine.checkTable reject L maxb >>= fun _ => x)
      (Machine.checkTable reject L' maxb >>= fun _ => y) := by
  subst hL
  cases Machine.checkTable reject L' maxb with
  | ok _ => exact h
  | error e => exact .error e

/-! ### The reads -/

theorem State.stageLoop_withLeftover (n k : Nat) (h : Leftover) (s : State) :
    State.stageLoop n k (s.withLeftover h) = (State.stageLoop n k s).withLeftover h := by
  induction k generalizing s with
  | zero => rfl
  | succ k ih =>
    have hbyte : (s.withLeftover h).stageByte = s.stageByte.withLeftover h := by
      unfold State.stageByte State.byteIn
      rw [show (s.withLeftover h).inPos = s.inPos from rfl, show (s.withLeftover h).srcLen = s.srcLen from rfl]
      split <;> rfl
    unfold State.stageLoop
    rw [show (s.withLeftover h).bitCnt = s.bitCnt from rfl, hbyte, ih, apply_ite (State.withLeftover h)]

theorem State.staged_withLeftover (n : Nat) (h : Leftover) (s : State) :
    (s.withLeftover h).staged n = (s.staged n).withLeftover h := s.stageLoop_withLeftover n 2 h

theorem dropBits_withLeftover (n : Nat) (h : Leftover) (s : State) :
    dropBits n (s.withLeftover h) = (dropBits n s).map (State.withLeftover h) := by
  unfold dropBits
  rw [show (s.withLeftover h).bitCnt = s.bitCnt from rfl,
    show ((s.withLeftover h).shiftOut n).truncated = (s.shiftOut n).truncated from rfl]
  split
  · split <;> rfl
  · rfl

theorem readBits_withLeftover {n : Nat} (hn : n ≤ 16) (h : Leftover) (s : State) :
    readBits n (s.withLeftover h) = (readBits n s).map fun q => (q.1, q.2.withLeftover h) := by
  have hconsumed : (s.withLeftover h).consumed n n = (s.consumed n n).withLeftover h := by
    rw [State.consumed, State.staged_withLeftover]
    rfl
  rw [readBits_eq hn, readBits_eq hn, hconsumed, State.staged_withLeftover,
    show ((s.consumed n n).withLeftover h).truncated = (s.consumed n n).truncated from rfl]
  split <;> rfl

theorem readCode_withLeftover {maxb : Nat} (hm : maxb ≤ 16) (h : Leftover) (s : State) (L : List Nat) :
    readCode L maxb (s.withLeftover h) = (readCode L maxb s).map fun q => (q.1, q.2.withLeftover h) := by
  have hpeek : (s.withLeftover h).peek maxb = s.peek maxb := by
    rw [State.peek_eq_fieldBits (Nat.le_refl maxb) hm, State.staged_withLeftover,
      s.peek_eq_fieldBits (Nat.le_refl maxb) hm]
    rfl
  rw [readCode_eq hm, readCode_eq hm, hpeek, State.staged_withLeftover]
  cases decodeSym L maxb (s.peek maxb) with
  | none => rfl
  | some q =>
    rw [Option.elim_some, Option.elim_some, dropBits_withLeftover]
    cases dropBits q.2 (s.staged maxb) <;> rfl

/-- A read that commutes with the leftover, then two computations in lockstep. -/
theorem Lockstep.read {α : Type} {R : α → α → Prop} {s : State} {h : Leftover} {x x' : Except Stop (Nat × State)}
    {k k' : Nat × State → Except Stop α} (hcomm : x' = x.map fun q => (q.1, q.2.withLeftover h))
    (hx : ∀ {v u}, x = .ok (v, u) → ∃ r, u = s.withReader r)
    (hk : ∀ v r, Lockstep R (k (v, s.withReader r)) (k' (v, (s.withReader r).withLeftover h))) :
    Lockstep R (x >>= k) (x' >>= k') := by
  subst hcomm
  cases x with
  | ok q =>
    obtain ⟨r, hr⟩ := hx (v := q.1) (u := q.2) rfl
    have hstep := hk q.1 r
    rw [← hr] at hstep
    exact hstep
  | error e => exact .error e

theorem Lockstep.readBits {α : Type} {R : α → α → Prop} {n : Nat} {s : State} {h : Leftover}
    {k k' : Nat × State → Except Stop α} (hn : n ≤ 16)
    (hk : ∀ v r, Lockstep R (k (v, s.withReader r)) (k' (v, (s.withReader r).withLeftover h))) :
    Lockstep R (readBits n s >>= k) (readBits n (s.withLeftover h) >>= k') :=
  .read (readBits_withLeftover hn h s) (readBits_withReader hn) hk

theorem Lockstep.readCode {α : Type} {R : α → α → Prop} {maxb : Nat} {L L' : List Nat} {s : State} {h : Leftover}
    {k k' : Nat × State → Except Stop α} (hm : maxb ≤ 16) (hL : L' = L)
    (hk : ∀ v r, Lockstep R (k (v, s.withReader r)) (k' (v, (s.withReader r).withLeftover h))) :
    Lockstep R (readCode L maxb s >>= k) (readCode L' maxb (s.withLeftover h) >>= k') :=
  .read (by rw [hL, readCode_withLeftover hm]) (readCode_withReader hm) hk

/-! ### What a step reads of the leftover -/

/-- The step of `f` in `s` finds in the leftover `h` what it finds in `s`: the arrays that this call has written. -/
def Leftover.Live (h : Leftover) (s : State) : Fsm → Prop
  | .dynCllen | .dynClbuild => h.clLen = s.clLen
  | .dynLens => h.clLen = s.clLen ∧ ∀ i < s.idx.toNat, (s.withLeftover h).lensAt i = s.lensAt i
  | .dynBuild => ∀ i < s.idx.toNat, (s.withLeftover h).lensAt i = s.lensAt i
  | .sym | .lenExtra | .distSym | .distExtra | .copy =>
    s.tblSel = false → h.litLen = s.litLen ∧ h.distLen = s.distLen
  | _ => True

/-- The states of two runs of one call. -/
def Twin (s s' : State) : Prop := ∃ h f, s' = s.withLeftover h ∧ s.fsm = Fsm.code f ∧ h.Live s f

/-- The next FSM state is one of two, by a test on what both runs see. -/
theorem Twin.of_fsm_ite {t : State} (h : Leftover) {c : Prop} [Decidable c] (f g : Fsm)
    (ht : t.fsm = if c then f.code else g.code) (hf : h.Live t f) (hg : h.Live t g) : Twin t (t.withLeftover h) := by
  split at ht
  · exact ⟨h, f, rfl, ht, hf⟩
  · exact ⟨h, g, rfl, ht, hg⟩

theorem Twin.blockEnd (u : State) (h : Leftover) : Twin u.blockEnd (u.withLeftover h).blockEnd :=
  .of_fsm_ite h .done .hdr (apply_ite Fsm.code _ _ _) trivial trivial

theorem Twin.ite {c : Prop} [Decidable c] {t t' u u' : State} (h : Twin t t') (h' : Twin u u') :
    Twin (if c then t else u) (if c then t' else u') := by
  split
  · exact h
  · exact h'

/-- The leftover after `WinPut(b)` (44_sliding_window.md rule R370). -/
def Leftover.put (h : Leftover) (s : State) (b : Byte) : Leftover :=
  { h with win := Memory.write h.win s.wpos.toNat b }

/-- A byte is produced in both runs or in none; each writes its own window. -/
theorem Lockstep.produce {R : State → State → Prop} {b : Byte} {s : State} {h : Leftover}
    (hR : R ((s.winPut b).outPush b) (((s.winPut b).outPush b).withLeftover (h.put s b))) :
    Lockstep R (produce b s) (produce b (s.withLeftover h)) := by
  cases hr : s.pins.outReady with
  | true =>
    rw [produce_of_ready hr, produce_of_ready (s := s.withLeftover h) hr]
    exact .ok hR
  | false =>
    rw [produce_of_not_ready hr, produce_of_not_ready (s := s.withLeftover h) hr]
    exact .error _

theorem Lockstep.produce_bind {R : State → State → Prop} {k k' : State → Except Stop State} {b : Byte} {s : State}
    {h : Leftover}
    (hk : Lockstep R (k ((s.winPut b).outPush b)) (k' (((s.winPut b).outPush b).withLeftover (h.put s b)))) :
    Lockstep R (Machine.produce b s >>= k) (Machine.produce b (s.withLeftover h) >>= k') :=
  .bind (.produce (R := fun p p' => Lockstep R (k p) (k' p')) hk) fun _ _ hp => hp

/-- The tables of the symbol loop: a fixed one, or one that DYN_BUILD of this call has written. -/
theorem Leftover.Live.tables {h : Leftover} {s : State} (hlive : h.Live s .sym) :
    (s.withLeftover h).litTable = s.litTable ∧ (s.withLeftover h).distTable = s.distTable := by
  cases hsel : s.tblSel with
  | true => simp [State.litTable, State.distTable, State.withLeftover, hsel]
  | false =>
    obtain ⟨hlit, hdist⟩ := hlive hsel
    simp [State.litTable, State.distTable, State.withLeftover, hsel, hlit, hdist]

/-- Where all lengths a block transmits are this call's own, so are the arrays cut from them (42_block_decoder.md rule
R241). -/
theorem Leftover.Live.fromLens {h : Leftover} {s : State} (hlive : h.Live s .dynBuild)
    (hidx : s.idx.toNat = s.lensTotal) :
    (s.withLeftover h).litLenFromLens = s.litLenFromLens ∧ (s.withLeftover h).distLenFromLens = s.distLenFromLens := by
  unfold State.lensTotal at hidx
  refine ⟨congrArg Vector.ofFn (funext fun i => ?_), congrArg Vector.ofFn (funext fun i => ?_)⟩
  · exact ite_congr rfl (fun hi => hlive i (by omega)) fun _ => rfl
  · refine ite_congr rfl (fun hi => hlive (s.nlit.toNat + i) ?_) fun _ => rfl
    have hi : i.val < s.ndist.toNat := hi
    omega

/-- A run of lengths makes more of `LENS` this call's own (42_block_decoder.md rule R235). -/
theorem lensAt_fillLens_congr {s s' t t' : State} {v : BitVec 4} {i r : Nat} (ht : t.lens = fillLens s.lens v i r)
    (ht' : t'.lens = fillLens s'.lens v i r) (h316 : i + r ≤ 316) (hbelow : ∀ k < i, s'.lensAt k = s.lensAt k) :
    ∀ k < (BitVec.ofNat 9 (i + r)).toNat, t'.lensAt k = t.lensAt k := by
  intro k hk
  have hk : k < i + r := Nat.lt_of_lt_of_le hk (Nat.mod_le _ _)
  rw [State.lensAt_of_lensWith (ht.trans (fillLens_eq_lensWith ..)) h316,
    State.lensAt_of_lensWith (ht'.trans (fillLens_eq_lensWith ..)) h316]
  exact ite_congr rfl (fun _ => rfl) fun hout => hbelow k (by omega)

/-- Both runs write the same run of lengths, each into its own `LENS`. -/
theorem lockstep_putLengths {u : State} {h : Leftover} (hlive : h.Live u .dynLens) (v : BitVec 4) (r : Nat) :
    Lockstep Twin (putLengths v r u) (putLengths v r (u.withLeftover h)) := by
  obtain ⟨hcl, hbelow⟩ := hlive
  refine .ite (.error _) fun _ => .ite (.error _) fun h316 => .ok ?_
  have hlens := fun t t' ht ht' =>
    lensAt_fillLens_congr (t := t) (t' := t') (v := v) ht ht' (Nat.le_of_not_lt h316) hbelow
  exact .of_fsm_ite { h with lens := fillLens h.lens v u.idx.toNat r } .dynBuild .dynLens rfl (hlens _ _ rfl rfl)
    ⟨hcl, hlens _ _ rfl rfl⟩

/-! ### Every step -/

/-- The byte that COPY reads is in both runs the one `MDIST` back in the output (44_sliding_window.md rule R375). -/
theorem winBack_withLeftover {s : State} {h : Leftover} (hf : s.fsm = Fsm.copy.code) (hs : s.Inv)
    (hs' : (s.withLeftover h).Inv) : (s.withLeftover h).winBack s.mdist = s.winBack s.mdist := by
  obtain ⟨-, -, -, h1, hdist⟩ := hs.stateInv hf
  have hback := winBackIsTheByteProducedDAgo s s.mdist hs h1 hdist
  have hback' := winBackIsTheByteProducedDAgo (s.withLeftover h) s.mdist hs' h1 hdist
  exact Option.some.inj (hback'.symm.trans hback)

/-- What the step of one FSM state does in two runs of a call. -/
theorem ruleOf_lockstep {f : Fsm} {s : State} {h : Leftover} (hf : s.fsm = f.code) (hlive : h.Live s f) (hs : s.Inv)
    (hs' : (s.withLeftover h).Inv) : Lockstep Twin (ruleOf f s) (ruleOf f (s.withLeftover h)) := by
  have hstate := hs.stateInv hf
  cases f
  case hdr =>
    refine .readBits (by omega) fun _ _ => .readBits (by omega) fun t _ => .ite (.error _) fun _ =>
      .ok ⟨h, _, rfl, rfl, ?_⟩
    split
    · trivial
    · split <;> trivial
  case storedAlign =>
    have halign : alignToByte (s.withLeftover h) = (alignToByte s).map (State.withLeftover h) :=
      dropBits_withLeftover _ h s
    rw [ruleOf, ruleOf, halign]
    cases alignToByte s with
    | ok u => exact .ok ⟨h, .storedLen, rfl, rfl, trivial⟩
    | error e => exact .error e
  case storedLen => exact .readBits (by omega) fun _ _ => .ok ⟨h, .storedNlen, rfl, rfl, trivial⟩
  case storedNlen =>
    exact .readBits (by omega) fun _ _ => .ite (.error _) fun _ => .ite (.ok (.blockEnd _ h)) fun _ =>
      .ok ⟨h, .storedCopy, rfl, rfl, trivial⟩
  case storedCopy =>
    exact .readBits (by omega) fun _ _ => .produce_bind <| .ok <|
      .ite (.blockEnd _ _) ⟨_, .storedCopy, rfl, hf, trivial⟩
  case dynHdr =>
    exact .readBits (by omega) fun _ _ => .readBits (by omega) fun _ _ => .readBits (by omega) fun _ _ =>
      .ite (.error _) fun _ => .ok ⟨{ h with clLen := Vector.replicate 19 0 }, .dynCllen, rfl, rfl, rfl⟩
  case dynCllen =>
    refine .readBits (by omega) fun v _ => .ite (.error _) fun _ => .ok <| .of_fsm_ite
      { h with clLen := h.clLen.setIfInBounds (perm.getD s.idx.toNat 0) (BitVec.ofNat 3 v) }
      .dynClbuild .dynCllen rfl ?_ ?_
    all_goals exact congrArg (Vector.setIfInBounds · _ _) hlive
  case dynLens =>
    have hput : ∀ {v v'}, v' = v → ∀ n r, Lockstep Twin (putLengths v n (s.withReader r))
        (putLengths v' n ((s.withReader r).withLeftover h)) := fun hv n r => by
      rw [hv]
      exact lockstep_putLengths (u := s.withReader r) hlive _ n
    refine .readCode (by omega) (congrArg natLens hlive.1) fun _ r => .ite (hput rfl 1 r) fun _ =>
      .ite (.ite (.error _) fun h0 => ?_) fun _ => .ite ?_ fun _ => ?_
    · have hpos : s.idx.toNat ≠ 0 := fun hz => h0 (BitVec.eq_of_toNat_eq hz)
      have hprev : (s.withLeftover h).lensAt (s.idx.toNat - 1) = s.lensAt (s.idx.toNat - 1) :=
        hlive.2 _ (Nat.sub_one_lt hpos)
      exact .readBits (by omega) fun _ _ => hput hprev _ _
    · exact .readBits (by omega) fun _ _ => hput rfl _ _
    · exact .readBits (by omega) fun _ _ => hput rfl _ _
  case sym =>
    exact .readCode (by omega) (Leftover.Live.tables hlive).1 fun _ _ =>
      .ite (.produce ⟨_, .sym, rfl, hf, hlive⟩) fun _ => .ite (.ok (.blockEnd _ h)) fun _ =>
        .ite (.ok ⟨h, .lenExtra, rfl, rfl, hlive⟩) fun _ => .error _
  case lenExtra =>
    have hext := lextOf_le s.lsym.toNat
    exact .ite (.readBits (by omega) fun _ _ => .ok ⟨h, .distSym, rfl, rfl, hlive⟩) fun _ => .error _
  case distSym =>
    exact .readCode (by omega) (Leftover.Live.tables hlive).2 fun _ _ => .ite (.error _) fun _ =>
      .ok ⟨h, .distExtra, rfl, rfl, hlive⟩
  case distExtra =>
    obtain ⟨-, -, -, h29⟩ := hstate
    have hext := dextOf_le h29
    exact .ite (.readBits (by omega) fun _ _ => .ite (.error _) fun _ => .ok ⟨h, .copy, rfl, rfl, hlive⟩) fun _ =>
      .error _
  case fixedSetup => exact .ok ⟨h, .sym, rfl, rfl, nofun⟩
  case dynClbuild => exact .checkTable (congrArg natLens hlive) (.ok ⟨h, .dynLens, rfl, rfl, ⟨hlive, nofun⟩⟩)
  case dynBuild =>
    obtain ⟨-, hidx⟩ := hstate
    obtain ⟨hlit, hdist⟩ := Leftover.Live.fromLens hlive hidx
    rw [ruleOf, ruleOf, hlit, hdist]
    exact .ite (.error _) fun _ => .checkTable rfl <| .checkTable rfl <| .ok
      ⟨{ h with litLen := s.litLenFromLens, distLen := s.distLenFromLens }, .sym, rfl, rfl, fun _ => ⟨rfl, rfl⟩⟩
  case copy =>
    have hback : (s.withLeftover h).winBack (s.withLeftover h).mdist = s.winBack s.mdist :=
      winBack_withLeftover hf hs hs'
    rw [ruleOf, ruleOf, hback]
    exact .produce_bind (.ok (.of_fsm_ite _ .sym .copy rfl hlive hlive))
  case idle => exact .ok ⟨h, .idle, rfl, hf, trivial⟩
  case done => exact .ok ⟨h, .done, rfl, hf, trivial⟩
  case error => exact .ok ⟨h, .error, rfl, hf, trivial⟩

/-- Where both computations of a step go through in lockstep, so does the step. -/
theorem finish_twin {s s' : State} {x x' : Except Stop State} (hs : Twin s s') (hx : Lockstep Twin x x')
    (hfault : NoFault x) : ∃ t t', finish s x = .next t ∧ finish s' x' = .next t' ∧ Twin t t' := by
  cases hx with
  | ok h => exact ⟨_, _, rfl, rfl, h⟩
  | error e =>
    match e with
    | .raise e =>
      obtain ⟨h, -, rfl, -⟩ := hs
      exact ⟨_, _, rfl, rfl, h, .error, rfl, rfl, trivial⟩
    | .hold => exact ⟨s, s', rfl, rfl, hs⟩
    | .fault f => exact absurd rfl (hfault f)

/-- START leaves what the host gives and the leftover, and nothing of the leftover is live (70_reset_and_hazards.md rule
R493). -/
theorem twin_start {s s' : State} (hreject : s.cfg.rejectIncomplete = s'.cfg.rejectIncomplete)
    (hlen : s.cfg.srcLenW = s'.cfg.srcLenW) (hcount : s.cfg.outCountW = s'.cfg.outCountW) (hpins : s.pins = s'.pins)
    (hsrc : s.src = s'.src) : Twin s.start s'.start := by
  have hstart : s'.start = s.start.withLeftover s'.leftover := by
    simp only [State.start, State.withLeftover, State.leftover, hreject, hlen, hcount, hpins, hsrc]
  rw [hstart]
  exact .of_fsm_ite _ .done .hdr rfl trivial trivial

theorem step_twin {s s' : State} (hs : s.Inv) (hs' : s'.Inv) (hst : Twin s s') :
    ∃ t t', step s = .next t ∧ step s' = .next t' ∧ Twin t t' := by
  have htwin := hst
  obtain ⟨h, f, rfl, hf, hlive⟩ := hst
  by_cases hown : s.ownStep
  · rw [step_eq_rule hown hf, step_eq_rule (s := s.withLeftover h) hown hf]
    exact finish_twin htwin (ruleOf_lockstep hf hlive hs hs') (ruleOf_noFault (hs.stateInv hf))
  · rcases step_cases s with ⟨hr, hstep⟩ | ⟨hr, h1, h2, hstep⟩ | ⟨hr, h1, -⟩
    · exact ⟨_, _, hstep, step_of_rst (s := s.withLeftover h) hr, h, .idle, rfl, rfl, trivial⟩
    · exact ⟨_, _, hstep, step_of_start (s := s.withLeftover h) hr h1 h2, twin_start rfl rfl rfl rfl rfl⟩
    · exact absurd ⟨hr, h1⟩ hown

theorem runSteps_twin (k : Nat) {s s' : State} (hs : s.Inv) (hs' : s'.Inv) (hst : Twin s s') :
    ∃ t t', runSteps k s = .next t ∧ runSteps k s' = .next t' ∧ Twin t t' := by
  induction k generalizing s s' with
  | zero => exact ⟨s, s', rfl, rfl, hst⟩
  | succ k ih =>
    obtain ⟨u, u', hu, hu', htwin⟩ := step_twin hs hs' hst
    rw [runSteps_of_step hu, runSteps_of_step hu']
    exact ih (stepKeepsInvariant s u hs hu) (stepKeepsInvariant s' u' hs' hu') htwin

/-- Settles O50: START makes the two states twins, and twins step alike and show the host the same. -/
theorem noStateLeaksAcrossCalls : Obligations.NoStateLeaksAcrossCalls := by
  intro s s' k hs hs' hreject hlen hcount hpins hsrc hrst hstart hrest hrest'
  have hstep := step_of_start hrst hstart hrest
  have hstep' := step_of_start (hpins ▸ hrst) (hpins ▸ hstart) hrest'
  have htwin := twin_start hreject hlen hcount hpins hsrc
  obtain ⟨t, t', ht, ht', h, f, rfl, -⟩ := runSteps_twin k hs.start hs'.start htwin
  exact ⟨t, _, (runSteps_of_step hstep k).trans ht, (runSteps_of_step hstep' k).trans ht', rfl⟩

end Sys2Proof.Machine

namespace Sys2Proof.Machine

/-! # How a rule is built

A rule makes reads, tests what the host does not touch, writes registers, and may end in `Produce`.  `Built d X` says so
once, with the number `d` of bits that `X` reads at least; what a rule does with the cursor and with `out_ready` follows
by induction. -/

/-- `R` reads at least `d` bits. -/
structure ReadsBits (d : Nat) (R : State → Except Stop (Nat × State)) : Prop extends Reading R where
  cur : ∀ {s u : State} {x : Nat}, s.ReaderInv → R s = .ok (x, u) → u.ReaderInv ∧ s.cur + d ≤ u.cur

theorem ReadsBits.readBits {d : Nat} {n : State → Nat} (hn : ∀ s, n s ≤ 16) (hd : ∀ s, d ≤ n s)
    (hh : ∀ s p m, n (s.withHost p m) = n s := by intros; rfl) : ReadsBits d fun s => readBits (n s) s where
  toReading := .readBits hn hh
  cur {s u x} hs h := by
    obtain ⟨v, hv, h⟩ := bind_eq_ok h
    obtain ⟨y, -, h⟩ := bind_eq_ok h
    obtain ⟨w, hw, hu⟩ := bind_eq_ok h
    cases hu
    obtain ⟨hu, hcur⟩ := (Reads.nothing.needBits_dropBits hv hw).readerInv hs
    have := hd s
    exact ⟨hu, by omega⟩

/-- A code has at least one bit (41_huffman.md rule R189). -/
theorem ReadsBits.readCode {L : State → List Nat} {maxb : Nat} (hm : maxb ≤ 16)
    (hh : ∀ s p m, L (s.withHost p m) = L s := by intros; rfl) : ReadsBits 1 fun s => readCode (L s) maxb s where
  toReading := .readCode hm hh
  cur {s u x} hs h := by
    obtain ⟨v, hv, h⟩ := bind_eq_ok h
    obtain ⟨y, -, h⟩ := bind_eq_ok h
    split at h
    · cases h
    · next q hq =>
      obtain ⟨w, hw, hu⟩ := bind_eq_ok h
      cases hu
      obtain ⟨-, -, hpos, -⟩ := decodeSym_eq_some hq
      obtain ⟨hu, hcur⟩ := (Reads.nothing.needBits_dropBits hv hw).readerInv hs
      exact ⟨hu, by omega⟩

/-- `X` is built as the rules are, and reads at least `d` bits where it does not stop. -/
inductive Built : Nat → (State → Except Stop State) → Prop
  | ok {g : State → State} (hready : ∀ s, g s.ready = (g s).ready := by intros; rfl)
      (hcur : ∀ s, (g s).cur = s.cur := by intros; rfl) : Built 0 fun s => .ok (g s)
  | error {d : Nat} {e : Stop} : Built d fun _ => .error e
  | ite {d : Nat} {c : State → Prop} [DecidablePred c] {X Y : State → Except Stop State} (hX : Built d X)
      (hY : Built d Y) (hc : ∀ s, c s.ready = c s := by intros; rfl) : Built d fun s => if c s then X s else Y s
  | drop {n : State → Nat} (hn : ∀ s, n s.ready = n s := by intros; rfl) : Built 0 fun s => dropBits (n s) s
  | read {d : Nat} {R : State → Except Stop (Nat × State)} {k : Nat × State → Except Stop State} (hR : ReadsBits d R)
      (hk : ∀ x, Built 0 fun u => k (x, u)) : Built d fun s => R s >>= k
  | checkTable {d : Nat} {L : State → List Nat} {maxb : Nat} {X : State → Except Stop State} (hX : Built d X)
      (hL : ∀ s, L s.ready = L s := by intros; rfl) :
      Built d fun s => checkTable s.cfg.rejectIncomplete (L s) maxb >>= fun _ => X s
  | produce {b : State → Byte} (hb : ∀ s, b s.ready = b s := by intros; rfl) : Built 0 fun s => produce (b s) s
  | map {d : Nat} {X : State → Except Stop State} {g : State → State} (hX : Built d X)
      (hready : ∀ s, g s.ready = (g s).ready := by intros; rfl)
      (hkeep : ∀ s, (g s).out = s.out ∧ (g s).cur = s.cur := by exact fun _ => ⟨rfl, rfl⟩) :
      Built d fun s => X s >>= fun u => .ok (g u)

/-- The bits a state's step reads at least: 1 or none. -/
def Fsm.minBits : Fsm → Nat
  | .hdr | .storedLen | .storedNlen | .storedCopy | .dynHdr | .dynCllen | .dynLens | .sym | .distSym => 1
  | _ => 0

theorem Built.putLengths {v : State → BitVec 4} (r : Nat) (hv : ∀ s, v s.ready = v s := by intros; rfl) :
    Built 0 fun s => putLengths (v s) r s := by
  unfold Machine.putLengths
  refine .ite .error (.ite .error (.ok fun s => ?_))
  rw [hv]
  rfl

theorem ruleOf_built (f : Fsm) : Built f.minBits (ruleOf f) := by
  have hbits : ∀ {d n : Nat}, n ≤ 16 → d ≤ n → ReadsBits d fun s => readBits n s := fun hn hd =>
    .readBits (fun _ => hn) fun _ => hd
  cases f
  case hdr =>
    exact .read (hbits (by omega) (by decide)) fun f => .read (hbits (by omega) (by omega)) fun t => .ite .error .ok
  case storedAlign => exact .map .drop
  case storedLen => exact .read (hbits (by omega) (by decide)) fun v => .ok
  case storedNlen => exact .read (hbits (by omega) (by decide)) fun v => .ite .error (.ite .ok .ok)
  case storedCopy =>
    refine .read (hbits (by omega) (by decide)) fun v => .map .produce (fun s => ?_) fun s => ?_
    · rw [apply_ite State.ready]
      rfl
    · split <;> exact ⟨rfl, rfl⟩
  case dynHdr =>
    exact .read (hbits (by omega) (by decide)) fun hl => .read (hbits (by omega) (by omega)) fun hd =>
      .read (hbits (by omega) (by omega)) fun hc => .ite .error .ok
  case dynCllen => exact .read (hbits (by omega) (by decide)) fun v => .ite .error .ok
  case dynLens =>
    refine .read (.readCode (by omega)) fun q => .ite (.putLengths 1) (.ite (.ite .error ?_) (.ite ?_ ?_))
    · exact .read (hbits (by omega) (by omega)) fun x => .putLengths _
    · exact .read (hbits (by omega) (by omega)) fun x => .putLengths _
    · exact .read (hbits (by omega) (by omega)) fun x => .putLengths _
  case sym => exact .read (.readCode (by omega)) fun q => .ite .produce (.ite .ok (.ite .ok .error))
  case lenExtra =>
    exact .ite (.read (.readBits (fun s => Nat.le_trans (lextOf_le s.lsym.toNat) (by omega)) (by simp [Fsm.minBits]))
      fun x => .ok) .error
  case distSym => exact .read (.readCode (by omega)) fun q => .ite .error .ok
  case distExtra =>
    have hext : ∀ s : State, dextOf s.dsym.toNat ≤ 16 := fun s => by
      have := s.dsym.isLt
      unfold dextOf
      omega
    exact .ite (.read (.readBits hext (by simp [Fsm.minBits])) fun x => .ite .error .ok) .error
  case fixedSetup => exact .ok
  case dynClbuild => exact .checkTable .ok
  case dynBuild => exact .ite .error (.checkTable (.checkTable .ok))
  case copy => exact .map .produce
  case idle => exact .ok
  case done => exact .ok
  case error => exact .ok

/-- A rule moves the cursor past the bits it reads. -/
theorem Built.cur_add_le {d : Nat} {X : State → Except Stop State} (hX : Built d X) {s t : State} (hs : s.ReaderInv)
    (h : X s = .ok t) : s.cur + d ≤ t.cur := by
  induction hX generalizing s t with
  | ok _ hcur =>
    cases h
    rw [hcur]
    exact Nat.le_refl _
  | error => cases h
  | ite _ _ _ ihX ihY =>
    beta_reduce at h
    split at h
    · exact ihX hs h
    · exact ihY hs h
  | drop =>
    obtain ⟨hn, -, rfl⟩ := dropBits_eq_ok h
    rw [hs.shiftOut_cur hn]
    omega
  | read hR _ ih =>
    obtain ⟨⟨x, u⟩, hu, ht⟩ := bind_eq_ok h
    obtain ⟨hu, hcur⟩ := hR.cur hs hu
    exact Nat.le_trans hcur (ih x hu ht)
  | checkTable _ _ ih =>
    obtain ⟨_, -, ht⟩ := bind_eq_ok h
    exact ih hs ht
  | produce =>
    obtain ⟨-, rfl⟩ := produce_eq_ok h
    exact Nat.le_refl _
  | map _ _ hkeep ih =>
    obtain ⟨u, hu, ht⟩ := bind_eq_ok h
    cases ht
    rw [(hkeep u).2]
    exact ih hs hu

/-- Of two runs from `s` the first has `out_ready` = 0, the second 1: they do the same, or the first holds where the
second produces. -/
inductive Stalled (s : State) : Except Stop State → Except Stop State → Prop
  | same (x : Except Stop State) : Stalled s x (x.map State.ready)
  | hold {t : State} (hout : t.out ≠ s.out) : Stalled s (.error .hold) (.ok t)

theorem Stalled.congr {s u : State} {x y : Except Stop State} (h : Stalled u x y) (hout : u.out = s.out) :
    Stalled s x y := by
  cases h with
  | same => exact .same x
  | hold ht => exact .hold (hout ▸ ht)

theorem Stalled.map {s : State} {x y : Except Stop State} {g : State → State} (h : Stalled s x y)
    (hready : ∀ s, g s.ready = (g s).ready) (hout : ∀ s, (g s).out = s.out) :
    Stalled s (x >>= fun u => .ok (g u)) (y >>= fun u => .ok (g u)) := by
  cases h with
  | same =>
    cases x with
    | ok u =>
      rw [Except.map, ok_bind, ok_bind, hready]
      exact .same (.ok (g u))
    | error e => exact .same (.error e)
  | hold ht => exact .hold ((hout _).symm ▸ ht)

theorem dropBits_ready (n : Nat) (s : State) : dropBits n s.ready = (dropBits n s).map State.ready := by
  refine (dropBits_withHost n s.ready.pins s.src s).trans ?_
  cases h : dropBits n s with
  | ok u =>
    obtain ⟨-, -, rfl⟩ := dropBits_eq_ok h
    rfl
  | error e => rfl

theorem Reading.ready {R : State → Except Stop (Nat × State)} (hR : Reading R) (s : State) :
    R s.ready = (R s).map fun q => (q.1, q.2.ready) := by
  cases h : R s with
  | ok q =>
    obtain ⟨⟨r, hr⟩, -, -, hhost⟩ := hR.ok (x := q.1) (u := q.2) h
    have hready : q.2.withHost s.ready.pins s.src = q.2.ready := by rw [hr]; rfl
    rw [Except.map, ← hready]
    exact hhost s.ready.pins s.src fun _ _ _ => rfl
  | error e => exact (hR.error h).2 s.ready.pins s.src fun _ _ _ => rfl

/-- A rule looks at `out_ready` in `Produce` alone. -/
theorem Built.stalled {d : Nat} {X : State → Except Stop State} (hX : Built d X) {s : State}
    (hr : s.pins.outReady = false) : Stalled s (X s) (X s.ready) := by
  induction hX generalizing s with
  | @ok g hready =>
    beta_reduce
    rw [hready]
    exact .same (.ok (g s))
  | @error d e => exact .same (.error e)
  | ite _ _ hc ihX ihY =>
    beta_reduce
    simp only [hc]
    split
    · exact ihX hr
    · exact ihY hr
  | @drop n hn =>
    beta_reduce
    rw [hn, dropBits_ready]
    exact .same _
  | @read d R k hR _ ih =>
    beta_reduce
    rw [hR.toReading.ready s]
    cases h : R s with
    | ok q =>
      obtain ⟨⟨r, hq⟩, -⟩ := hR.ok (x := q.1) (u := q.2) h
      have hout : q.2.out = s.out := by rw [hq]; rfl
      exact (ih q.1 (s := q.2) (by rw [hq]; exact hr)).congr hout
    | error e => exact .same (.error e)
  | @checkTable d L maxb X _ hL ih =>
    beta_reduce
    rw [hL, State.ready_cfg]
    cases Machine.checkTable s.cfg.rejectIncomplete (L s) maxb with
    | ok _ => exact ih hr
    | error e => exact .same (.error e)
  | @produce b hb =>
    beta_reduce
    rw [produce_of_not_ready hr, produce_of_ready (s := s.ready) rfl]
    exact .hold (by simp)
  | map _ hready hkeep ih => exact (ih hr).map hready fun u => (hkeep u).1

end Sys2Proof.Machine

namespace Sys2Proof.Machine

/-! # A strict call ends

Each step of a strict call reads bits, of which there are as many as the source has, or takes the call nearer to a step
that does (45_stream_controller.md rule R408 (a)). -/

/-- In strict mode the cursor does not pass the end of the source (40_bit_reader.md rule R155). -/
theorem State.ReaderInv.cur_le {s : State} (h : s.ReaderInv) (hstrict : s.strict = true) : s.cur ≤ 8 * s.srcLen := by
  have hcnt := h.bitCnt_le
  have hpos := h.inPos_le
  have hpads := h.padCnt_eq
  have hunread := h.strict_unread hstrict
  unfold State.cur
  omega

/-- A bound on the steps of a state `f` and those after it that read no bit. -/
def State.idleSteps (s : State) : Fsm → Nat
  | .storedAlign | .fixedSetup | .dynClbuild | .dynBuild | .lenExtra => 1
  | .distExtra => 2 ^ 16
  | .copy => s.rem.toNat
  | _ => 0

theorem State.idleSteps_le (s : State) (f : Fsm) : s.idleSteps f ≤ 2 ^ 16 := by
  have := s.rem.isLt
  unfold State.idleSteps
  split <;> omega

/-- The bits left in the source, then the steps that read none. -/
def State.workLeft (s : State) (f : Fsm) : Nat := 2 ^ 17 * (8 * s.srcLen - s.cur) + s.idleSteps f

/-- A step that need not read a bit takes the call to a state that is nearer to one that does. -/
theorem ruleOf_idleSteps_lt {f : Fsm} {s t : State} (hf : s.fsm = f.code) (hs : s.Inv)
    (ha : f ≠ .idle ∧ f ≠ .done ∧ f ≠ .error) (hmin : f.minBits = 0) (h : ruleOf f s = .ok t) :
    ∃ g, t.fsm = Fsm.code g ∧ t.idleSteps g < s.idleSteps f := by
  cases f
  case idle => exact absurd rfl ha.1
  case done => exact absurd rfl ha.2.1
  case error => exact absurd rfl ha.2.2
  case storedAlign =>
    obtain ⟨u, -, ht⟩ := bind_eq_ok h
    cases ht
    exact ⟨.storedLen, rfl, Nat.zero_lt_one⟩
  case fixedSetup =>
    cases h
    exact ⟨.sym, rfl, Nat.zero_lt_one⟩
  case dynClbuild =>
    obtain ⟨_, -, ht⟩ := bind_eq_ok h
    cases ht
    exact ⟨.dynLens, rfl, Nat.zero_lt_one⟩
  case dynBuild =>
    rw [ruleOf] at h
    split at h
    · cases h
    · obtain ⟨_, -, h⟩ := bind_eq_ok h
      obtain ⟨_, -, ht⟩ := bind_eq_ok h
      cases ht
      exact ⟨.sym, rfl, Nat.zero_lt_one⟩
  case lenExtra =>
    rw [ruleOf] at h
    split at h
    · obtain ⟨_, -, ht⟩ := bind_eq_ok h
      cases ht
      exact ⟨.distSym, rfl, Nat.zero_lt_one⟩
    · cases h
  case distExtra =>
    rw [ruleOf] at h
    split at h
    · obtain ⟨⟨x, u⟩, -, h⟩ := bind_eq_ok h
      dsimp only at h
      split at h
      · cases h
      · cases h
        exact ⟨.copy, rfl, BitVec.isLt _⟩
    · cases h
  case copy =>
    obtain ⟨-, h1, -⟩ := hs.stateInv hf
    obtain ⟨p, hp, ht⟩ := bind_eq_ok h
    obtain ⟨-, rfl⟩ := produce_eq_ok hp
    cases ht
    obtain ⟨n, hn⟩ : ∃ n, s.rem.toNat = n + 1 := Nat.exists_eq_add_one_of_ne_zero (by omega)
    have hfsm := State.copiedBack_fsm hn
    split at hfsm
    · exact ⟨.sym, hfsm, by simp only [State.idleSteps]; omega⟩
    · exact ⟨.copy, hfsm, (State.copiedBack_rem hn).trans_lt (by simp only [State.idleSteps]; omega)⟩
  all_goals cases hmin

/-- No step of a call leads to IDLE. -/
theorem Effect.fsm_ne_idle {o : Option Instr} {f : Fsm} {u t : State} (h : Effect o f u t) (hf : u.fsm = f.code) :
    t.fsm ≠ Fsm.idle.code := by
  have hcode : ∀ g : Fsm, g ≠ .idle → g.code ≠ Fsm.idle.code := fun g hg h => hg (Fsm.code_injective h)
  have hend : ∀ v : State, v.blockEnd.fsm ≠ Fsm.idle.code := fun v => by
    rw [State.blockEnd_fsm]
    cases v.bfinal <;> decide
  have hite : ∀ (c : Prop) [Decidable c] (g g' : Fsm), g ≠ .idle → g' ≠ .idle →
      (if c then g.code else g'.code) ≠ Fsm.idle.code := fun c _ g g' hg hg' h => by
    split at h
    · exact hcode g hg h
    · exact hcode g' hg' h
  cases h with
  | header hi => obtain ⟨-, -, rfl⟩ | ⟨-, -, rfl⟩ | ⟨-, -, rfl⟩ := hi <;> nofun
  | storedEmpty | eob | storedLast => exact hend _
  | storedByte | lit => exact fun h => absurd (hf.symm.trans h) (by decide)
  | dynCllen | codeLengths | copy => exact hite _ _ _ (by decide) (by decide)
  | _ => nofun

theorem StepResult.fsm_ne_idle {o : Option Instr} {s t : State} (h : StepResult o s t)
    (hs : s.fsm ≠ Fsm.idle.code) : t.fsm ≠ Fsm.idle.code := by
  obtain ⟨k, u, f, -, -, hf, heffect⟩ | ⟨e, rfl⟩ | rfl := h
  · exact heffect.fsm_ne_idle hf
  · rw [State.raise_fsm]
    decide
  · exact hs

theorem State.ownStep_of_active {s : State} {f : Fsm} (hrst : s.pins.rst = false) (hf : s.fsm = f.code)
    (ha : f ≠ .idle ∧ f ≠ .done ∧ f ≠ .error) : s.ownStep :=
  ⟨hrst, by simp [State.atRest_code hf, ha]⟩

/-- A state of a strict call with `out_ready` = 1 and without reset. -/
structure StrictCall (s : State) (f : Fsm) : Prop where
  inv : s.Inv
  flowing : s.flowing
  strict : s.strict = true
  fsm : s.fsm = f.code
  ne_idle : f ≠ .idle

theorem StrictCall.ownStep {s : State} {f : Fsm} (hs : StrictCall s f) (ha : f ≠ .done ∧ f ≠ .error) : s.ownStep :=
  State.ownStep_of_active hs.flowing.1 hs.fsm ⟨hs.ne_idle, ha⟩

theorem StrictCall.of_step {s t : State} {f g : Fsm} (hs : StrictCall s f) (ha : f ≠ .done ∧ f ≠ .error)
    (h : step s = .next t) (hg : t.fsm = g.code) : StrictCall t g ∧ t.srcLen = s.srcLen := by
  obtain ⟨o, ho⟩ := step_stepResult (hs.ownStep ha) h
  have hcall := ho.callInputs
  simp only [State.callInputs, Prod.mk.injEq] at hcall
  obtain ⟨-, hpins, hstrict, hlen, -⟩ := hcall
  have hidle : s.fsm ≠ Fsm.idle.code := fun hc => hs.ne_idle (Fsm.code_injective (hs.fsm.symm.trans hc))
  exact ⟨{ inv := stepKeepsInvariant s t hs.inv h
           flowing := ⟨hpins ▸ hs.flowing.1, hpins ▸ hs.flowing.2⟩
           strict := hstrict.trans hs.strict
           fsm := hg
           ne_idle := fun hc => ho.fsm_ne_idle hidle (hc ▸ hg) }, hlen⟩

/-- A step of a strict call ends the call or leaves less to do. -/
theorem StrictCall.step {s : State} {f : Fsm} (hs : StrictCall s f) (ha : f ≠ .done ∧ f ≠ .error) :
    ∃ t g, step s = .next t ∧ StrictCall t g ∧ (g = .error ∨ t.workLeft g < s.workLeft f) := by
  obtain ⟨t, ht⟩ := invariantStatesNeverFault s hs.inv
  obtain hok | ⟨e, -, rfl⟩ | ⟨hhold, -⟩ := finish_eq_next ((step_eq_rule (hs.ownStep ha) hs.fsm).symm.trans ht)
  · have hcur := (ruleOf_built f).cur_add_le hs.inv.reader hok
    by_cases hmin : f.minBits = 0
    · obtain ⟨g, hg, hlt⟩ := ruleOf_idleSteps_lt hs.fsm hs.inv ⟨hs.ne_idle, ha⟩ hmin hok
      obtain ⟨hcall, hlen⟩ := hs.of_step ha ht hg
      refine ⟨t, g, ht, hcall, .inr ?_⟩
      unfold State.workLeft
      omega
    · obtain ⟨g, hg, -⟩ := (stepKeepsInvariant s t hs.inv ht).state
      obtain ⟨hcall, hlen⟩ := hs.of_step ha ht (Fsm.ofCode_eq_some hg)
      have hend := hcall.inv.reader.cur_le hcall.strict
      have hle := t.idleSteps_le g
      refine ⟨t, g, ht, hcall, .inr ?_⟩
      unfold State.workLeft
      omega
  · exact ⟨_, .error, ht, (hs.of_step ha ht rfl).1, .inl rfl⟩
  · cases hs.flowing.2.symm.trans ((ruleOf_readsAhead f).hold hhold)

theorem StrictCall.ends {s : State} {f : Fsm} (hs : StrictCall s f) :
    ∃ k t, runSteps k s = .next t ∧ (t.fsm = Fsm.done.code ∨ t.fsm = Fsm.error.code) := by
  induction hn : s.workLeft f using Nat.strong_induction_on generalizing s f with
  | _ n ih =>
    by_cases hdone : f = .done
    · exact ⟨0, s, rfl, .inl (hdone ▸ hs.fsm)⟩
    by_cases herror : f = .error
    · exact ⟨0, s, rfl, .inr (herror ▸ hs.fsm)⟩
    obtain ⟨t, g, ht, hcall, rfl | hlt⟩ := hs.step ⟨hdone, herror⟩
    · exact ⟨1, t, runSteps_of_step ht 0, .inr hcall.fsm⟩
    · obtain ⟨k, u, hk, hu⟩ := ih _ (hn ▸ hlt) hcall rfl
      exact ⟨k + 1, u, (runSteps_of_step ht k).trans hk, hu⟩

/-- Settles O48, by induction on the work left. -/
theorem strictCallEnds : Obligations.StrictCallEnds := by
  intro s hs hflow hstrict hbusy
  obtain ⟨f, hf, -⟩ := hs.state
  refine StrictCall.ends ⟨hs, hflow, hstrict, Fsm.ofCode_eq_some hf, fun h => ?_⟩
  simp [State.busy, State.atRest_code (Fsm.ofCode_eq_some hf), h] at hbusy

end Sys2Proof.Machine

namespace Sys2Proof.Machine

/-! # Control: START, `out_ready` and the states without a step -/

theorem State.ownStep_of_busy {s : State} (hrst : s.pins.rst = false) (hbusy : s.busy = true) : s.ownStep :=
  ⟨hrst, by simp [show s.atRest = false by simpa [State.busy] using hbusy]⟩

/-- The own steps of two states with one value of `FSM` are the same rule in each, or the same fault. -/
theorem step_own_cases_of_fsm_eq {s s' : State} (h : s.ownStep) (h' : s'.ownStep) (hfsm : s'.fsm = s.fsm) :
    (step s = .fault .fsmUnused ∧ step s' = .fault .fsmUnused) ∨
      ∃ f, step s = finish s (ruleOf f s) ∧ step s' = finish s' (ruleOf f s') := by
  obtain ⟨hnone, hfault⟩ | ⟨f, hf, hstep⟩ := step_own_cases h
  · obtain ⟨-, hfault'⟩ | ⟨f, hf, -⟩ := step_own_cases h'
    · exact .inl ⟨hfault, hfault'⟩
    · rw [← hfsm, hf, Fsm.ofCode_code] at hnone
      cases hnone
  · exact .inr ⟨f, hstep, step_eq_rule h' (hfsm.trans hf)⟩

/-- A rule looks at no level but `out_ready`. -/
theorem ruleOf_withPins (f : Fsm) {s : State} {p : Pins} (hp : p.outReady = s.pins.outReady) :
    ruleOf f (s.withHost p s.src) = (ruleOf f s).map (State.withHost p s.src) := by
  have hf := ruleOf_readsAhead f
  cases hr : ruleOf f s with
  | ok t => exact hf.advance hr (fun _ _ _ => rfl) hp
  | error e => exact hf.stop hr (fun _ _ _ => rfl) hp

theorem step_src {s t : State} (hown : s.ownStep) (h : step s = .next t) : t.src = s.src := by
  obtain ⟨o, ho⟩ := step_stepResult hown h
  have hcall := ho.callInputs
  simp only [State.callInputs, Prod.mk.injEq] at hcall
  exact hcall.2.2.2.2

/-- Settles O36: in a busy state neither step is START's, and of the levels a rule looks at `out_ready` alone. -/
theorem startIsIgnoredWhileBusy : Obligations.StartIsIgnoredWhileBusy := by
  intro s start strict n hrst hbusy p
  have hown := State.ownStep_of_busy hrst hbusy
  have hown' : (s.withHost p s.src).ownStep := State.ownStep_of_busy hrst hbusy
  obtain ⟨hfault, hfault'⟩ | ⟨f, hstep, hstep'⟩ := step_own_cases_of_fsm_eq hown hown' rfl
  · exact ⟨fun t h => (by cases hfault.symm.trans h), fun g h => hfault'.trans (hfault.symm.trans h)⟩
  · rw [ruleOf_withPins f (p := p) rfl] at hstep'
    refine ⟨fun t h => hstep'.trans ?_, fun g h => hstep'.trans ?_⟩
    · rw [finish_withHost p s.src (hstep.symm.trans h), State.withHost, ← step_src hown h]
    · rw [finish_eq_fault (hstep.symm.trans h)]
      rfl

/-- While `out_ready` = 0 nothing is produced. -/
theorem step_out_of_not_ready {s t : State} (hown : s.ownStep) (hr : s.pins.outReady = false)
    (h : step s = .next t) : t.out = s.out := by
  obtain ⟨hout, -⟩ | ⟨b, hready, -⟩ := stepProducesAtMostOneByte s t hown h
  · exact hout
  · cases hr.symm.trans hready

/-- What a step with `out_ready` = 0 and the same step with `out_ready` = 1 answer. -/
theorem step_ready_cases {s : State} (hown : s.ownStep) (hr : s.pins.outReady = false) :
    (∃ t, step s = .next t ∧ step s.ready = .next t.ready) ∨
      (∃ f, step s = .fault f ∧ step s.ready = .fault f) ∨
      (step s = .next s ∧ ∃ t, step s.ready = .next t ∧ t.out ≠ s.out) := by
  obtain ⟨hfault, hfault'⟩ | ⟨f, hstep, hstep'⟩ := step_own_cases_of_fsm_eq (s' := s.ready) hown hown rfl
  · exact .inr (.inl ⟨_, hfault, hfault'⟩)
  · rw [hstep, hstep']
    generalize hx : ruleOf f s = x, hy : ruleOf f s.ready = y
    have hstall : Stalled s x y := hx ▸ hy ▸ (ruleOf_built f).stalled hr
    cases hstall with
    | same =>
      match x with
      | .ok t => exact .inl ⟨t, rfl, rfl⟩
      | .error (.raise e) => exact .inl ⟨s.raise e, rfl, rfl⟩
      | .error .hold => exact .inl ⟨s, rfl, rfl⟩
      | .error (.fault g) => exact .inr (.inl ⟨g, rfl, rfl⟩)
    | hold hout => exact .inr (.inr ⟨rfl, _, rfl, hout⟩)

/-- Settles O40: a rule looks at `out_ready` in `Produce` alone. -/
theorem stalledStepHoldsOnlyProduction : Obligations.StalledStepHoldsOnlyProduction := by
  intro s hrst hbusy hr
  have hown := State.ownStep_of_busy hrst hbusy
  obtain ⟨t, ht, ht'⟩ | ⟨f, hf, hf'⟩ | ⟨hhold, t, ht, hout⟩ := step_ready_cases hown hr
  · rw [ht, ht']
    refine ⟨fun u h hne => ?_, fun u h _ => ?_, nofun⟩
    · cases h
      exact absurd (step_out_of_not_ready hown hr ht) hne
    · cases h
      rw [← step_pins hown ht]
      rfl
  · rw [hf, hf']
    exact ⟨fun _ h => (by cases h), fun _ h => (by cases h), fun _ h => h⟩
  · rw [hhold, ht]
    refine ⟨fun _ _ _ => rfl, fun u h heq => ?_, nofun⟩
    cases h
    exact absurd heq hout

/-! ### START and the states without a step -/

/-- Settles O35: START takes the step, and the length fits its register. -/
theorem startBeginsACall : Obligations.StartBeginsACall := by
  intro s hrst hstart hfsm hlen
  have hrest : s.atRest = true := by
    obtain h | h | h := hfsm <;> rw [State.atRest_code h] <;> rfl
  rw [step_of_start hrst hstart hrest, State.start, Nat.mod_eq_of_lt hlen, ← apply_ite Fsm.code]

theorem Fsm.code_toNat_le (f : Fsm) : f.code.toNat ≤ 18 := by
  cases f <;> decide

/-- Settles O37: the rule of a state at rest is to keep the state, and no FSM state has a code above 18. -/
theorem statesWithoutAStep : Obligations.StatesWithoutAStep := by
  intro s hrst
  refine ⟨fun hstart hfsm => ?_, fun h19 => ?_⟩
  · have hown : s.ownStep := ⟨hrst, by rw [hstart, Bool.false_and]⟩
    obtain h | h | h := hfsm <;> exact step_eq_rule hown h
  · have hcode : ∀ f : Fsm, s.fsm ≠ f.code := fun f h => by
      have := f.code_toNat_le
      rw [h] at h19
      omega
    have hbusy : s.busy = true := by simp [State.busy, State.atRest, hcode]
    obtain ⟨-, hfault⟩ | ⟨f, hf, -⟩ := step_own_cases (State.ownStep_of_busy hrst hbusy)
    · exact hfault
    · exact absurd hf (hcode f)

theorem stepOf_of_ctx {f : Fsm} {s : State} {c : Ctx} (h : s.ctx f = some c) : stepOf f s = runElement c s := by
  simp only [stepOf, h]

/-- Settles O58: the own step of a reading state runs what the decoder finds at the cursor. -/
theorem stepRunsTheDecodedElement : Obligations.StepRunsTheDecodedElement := by
  intro s f c i rest hown hf hctx hdecode _
  rw [step_of_fsm hown.1 hown.2 hf, stepOf_of_ctx hctx, runElement_of_ok hdecode]

/-! ### A call without an end

Past the end of the source a lenient call reads zeros.  Where the code of a literal is 0 it produces that literal for
ever (93_implementation_defined.md U4). -/

/-- A table of `n + 1` symbols in which the symbol 0 alone has a code: `0`, one bit. -/
def oneCode (n : Nat) : List Nat := 1 :: List.replicate n 0

theorem natLens_soleVector_zero (n : Nat) : natLens (soleVector (n + 1) 4 0) = oneCode n := by
  simp [natLens, soleVector, oneCode, List.replicate_succ]

theorem natLens_replicate_zero (n w : Nat) : natLens (Vector.replicate n (0 : BitVec w)) = List.replicate n 0 := by
  simp [natLens]

theorem decodeSym_oneCode (n : Nat) : decodeSym (oneCode n) 15 (List.replicate 15 false) = some (0, 1) := rfl

theorem codeLen_oneCode_zero (n : Nat) : codeLen (oneCode n) 0 = 1 := rfl

theorem codeLen_oneCode_succ (n k : Nat) : codeLen (oneCode n) (k + 1) = 0 := by
  simp [codeLen, oneCode]

theorem buildStatus_oneCode (n : Nat) : buildStatus (oneCode n) 15 ≠ .overSubscribed := by
  rw [Ne, buildStatus_overSubscribed_iff (by simp [oneCode])]
  simp [codeSpace, oneCode]

theorem buildStatus_zeros (n : Nat) : buildStatus (List.replicate n 0) 15 ≠ .overSubscribed := by
  rw [(buildStatus_empty_iff (by simp)).mpr (by simp)]
  decide

/-- A state of a lenient call with an empty source, in SYM with that table. -/
structure ZeroCall (s : State) : Prop where
  inv : s.Inv
  flowing : s.flowing
  lenient : s.strict = false
  srcLen : s.srcLen = 0
  fsm : s.fsm = Fsm.sym.code
  table : s.litTable = oneCode 287

theorem ZeroCall.busy {s : State} (hs : ZeroCall s) : s.busy = true :=
  State.busy_of_active hs.fsm (by decide)

theorem ZeroCall.peek {s : State} (hs : ZeroCall s) (n : Nat) : s.peek n = List.replicate n false := by
  have hzero : ∀ k, s.sourceBit k = false := fun k => by simp [State.sourceBit, hs.srcLen]
  rw [hs.inv.reader.peek_eq hs.busy hs.lenient]
  simp [hzero]

theorem ZeroCall.step {s : State} (hs : ZeroCall s) : ∃ t, step s = .next t ∧ ZeroCall t := by
  obtain ⟨hrst, hready⟩ := hs.flowing
  have hsym : decodeSym s.litTable 15 (s.peek 15) = some (0, 1) := by
    rw [hs.table, hs.peek, decodeSym_oneCode]
  have htrunc : (s.consumed 15 1).truncated = false := by simp [State.truncated, hs.lenient]
  have hcode : codeLen s.litTable 0 = 1 := by rw [hs.table, codeLen_oneCode_zero]
  have hstep : Machine.step s = .next (((s.consumed 15 1).winPut 0).outPush 0) := by
    rw [step_eq_rule_of_active hrst hs.fsm, ruleOf, readCode_bind_of_some (by omega) hsym,
      consumeCode_of_not_truncated (by omega) (hcode.symm ▸ htrunc) (by omega) (by omega), hcode, ok_bind]
    exact congrArg _ (produce_of_ready (by simpa using hready))
  refine ⟨_, hstep, stepKeepsInvariant s _ hs.inv hstep, ?_, ?_, ?_, ?_, ?_⟩
  · simpa [State.flowing] using hs.flowing
  · simpa using hs.lenient
  · simpa using hs.srcLen
  · simpa using hs.fsm
  · simpa [State.litTable] using hs.table

theorem ZeroCall.runSteps {s : State} (hs : ZeroCall s) (k : Nat) :
    ∃ t, runSteps k s = .next t ∧ t.busy = true := by
  induction k generalizing s with
  | zero => exact ⟨s, rfl, hs.busy⟩
  | succ k ih =>
    obtain ⟨u, hu, hcall⟩ := hs.step
    rw [runSteps_of_step hu]
    exact ih hcall

/-- SYM with an empty source and the table of one code. -/
def zeroCall : State := { State.reset with fsm := Fsm.sym.code, litLen := soleVector 288 4 0 }

theorem zeroCall_litTable : zeroCall.litTable = oneCode 287 := natLens_soleVector_zero 287

theorem zeroCall_distTable : zeroCall.distTable = List.replicate 32 0 := natLens_replicate_zero 32 4

theorem zeroCall_tablesLegal : zeroCall.tablesLegal := fun hsel => by
  rw [← State.litTable_of_dynamic hsel, ← State.distTable_of_dynamic hsel, zeroCall_litTable, zeroCall_distTable]
  exact ⟨buildStatus_oneCode 287, buildStatus_zeros 32, codeLen_oneCode_succ 287 285, codeLen_oneCode_succ 287 286,
    rfl, rfl⟩

theorem zeroCall_inv : zeroCall.Inv where
  config := by
    unfold Config.legal
    decide
  reader := .of_empty rfl (by decide)
  window := by constructor <;> simp [zeroCall, State.reset, Memory.wf, Memory.wfFrom, Memory.below]
  src_wf := rfl
  btype_ne := by decide
  error_code := by decide
  state := ⟨.sym, rfl, zeroCall_tablesLegal⟩

/-- Settles O49: every step of the call produces a literal and stays in SYM. -/
theorem lenientCallMayRunForEver : Obligations.LenientCallMayRunForEver := by
  have hs : ZeroCall zeroCall := ⟨zeroCall_inv, ⟨rfl, rfl⟩, rfl, rfl, rfl, zeroCall_litTable⟩
  exact ⟨zeroCall, hs.inv, hs.flowing, hs.lenient, hs.runSteps⟩

end Sys2Proof.Machine

namespace Sys2Proof.Machine

/-! # Error entry

A step enters ERROR by a raise alone: no rule writes ERROR to `FSM`.  `Yields` says of a rule, from its reads on, which
errors it may raise and that it ends outside ERROR. -/

/-- `x` ends in a result with `P`, raises an error of `es`, holds, or faults. -/
inductive Yields {α : Type} (es : List Err) (P : α → Prop) : Except Stop α → Prop
  | ok {a : α} (h : P a) : Yields es P (.ok a)
  | raise {e : Err} (h : e ∈ es) : Yields es P (.error (.raise e))
  | hold : Yields es P (.error .hold)
  | fault (f : Fault) : Yields es P (.error (.fault f))

theorem Yields.bind {α β : Type} {es : List Err} {P : α → Prop} {Q : β → Prop} {x : Except Stop α}
    {k : α → Except Stop β} (hx : Yields es P x) (hk : ∀ a, P a → Yields es Q (k a)) : Yields es Q (x >>= k) := by
  cases hx with
  | ok h => exact hk _ h
  | raise h => exact .raise h
  | hold => exact .hold
  | fault f => exact .fault f

theorem Yields.ite {α : Type} {es : List Err} {P : α → Prop} {c : Prop} [Decidable c] {x y : Except Stop α}
    (hx : Yields es P x) (hy : Yields es P y) : Yields es P (if c then x else y) := by
  split
  · exact hx
  · exact hy

/-- `FSM` is not ERROR. -/
def State.Unfailed (s : State) : Prop := s.fsm ≠ Fsm.error.code

theorem State.Unfailed.withReader {s : State} (h : s.Unfailed) (r : Reader) : (s.withReader r).Unfailed := h

theorem State.Unfailed.of_fsm {s : State} (f : Fsm) (h : s.fsm = f.code) (hf : f ≠ .error := by decide) :
    s.Unfailed := fun he => hf (Fsm.code_injective (h.symm.trans he))

/-- A rule ends with `FSM` one of two states. -/
theorem State.Unfailed.of_fsm_ite {s : State} {c : Prop} [Decidable c] (f g : Fsm)
    (h : s.fsm = if c then f.code else g.code) (hf : f ≠ .error := by decide) (hg : g ≠ .error := by decide) :
    s.Unfailed := by
  split at h
  · exact .of_fsm f h hf
  · exact .of_fsm g h hg

theorem State.blockEnd_unfailed (s : State) : s.blockEnd.Unfailed := .of_fsm_ite .done .hdr (apply_ite Fsm.code _ _ _)

/-! ### The parts of a rule -/

theorem Yields.dropBits {es : List Err} {s : State} (n : Nat) (hs : s.Unfailed)
    (he : .truncatedInput ∈ es := by decide) : Yields es State.Unfailed (dropBits n s) := by
  unfold Machine.dropBits
  exact .ite (.ite (.raise he) (.ok hs)) (.fault _)

/-- A read, then the rest of the rule, in a state that differs in the bit reader alone. -/
theorem Yields.readBits {es : List Err} {P : State → Prop} {n : Nat} {s : State}
    {k : Nat × State → Except Stop State} (hn : n ≤ 16) (hs : s.Unfailed)
    (hk : ∀ v u, u.Unfailed → Yields es P (k (v, u))) (he : .truncatedInput ∈ es := by decide) :
    Yields es P (readBits n s >>= k) := by
  rw [readBits_eq hn, State.consumed_eq_withReader]
  split
  · exact .raise he
  · exact hk _ _ (hs.withReader _)

/-- The same for a code, which may be none of the table's (41_huffman.md rule R190). -/
theorem Yields.readCode {es : List Err} {P : State → Prop} {L : List Nat} {maxb : Nat} {s : State}
    {k : Nat × State → Except Stop State} (hm : maxb ≤ 16) (hs : s.Unfailed)
    (hk : ∀ v u, u.Unfailed → Yields es P (k (v, u))) (he : .truncatedInput ∈ es := by decide)
    (hc : .unsupportedSymbol ∈ es := by decide) : Yields es P (readCode L maxb s >>= k) := by
  have hstaged : (s.staged maxb).Unfailed := by
    rw [State.staged, State.stageLoop_eq_withReader]
    exact hs.withReader _
  obtain hnone | ⟨q, hq⟩ := readCode_cases (L := L) hm s
  · rw [hnone]
    exact .raise hc
  · rw [hq, bind_assoc]
    exact (Yields.dropBits q.2 hstaged he).bind fun u hu => hk q.1 u hu

theorem Yields.produce {es : List Err} {b : Byte} {s : State} (hs : s.Unfailed) :
    Yields es State.Unfailed (produce b s) := by
  unfold Machine.produce
  exact .ite (.ok hs) .hold

theorem Yields.putLengths {es : List Err} {v : BitVec 4} {r : Nat} {s : State}
    (hc : .unsupportedSymbol ∈ es := by decide) : Yields es State.Unfailed (putLengths v r s) := by
  unfold Machine.putLengths
  exact .ite (.raise hc) (.ite (.fault _) (.ok (.of_fsm_ite .dynBuild .dynLens rfl)))

/-- `BuildDyn` raises its two errors alone (41_huffman.md rule R188). -/
theorem buildDyn_mem {reject : Bool} {L : List Nat} {maxb : Nat} {e : Err} (h : buildDyn reject L maxb = some e) :
    e ∈ [.overSubscribedHuffmanCode, .incompleteHuffmanCode] := by
  obtain ⟨rfl, -⟩ | ⟨rfl, -⟩ := buildDyn_eq_some_iff.mp h <;> decide

theorem Yields.checkTable {P : State → Prop} {reject : Bool} {L : List Nat} {maxb : Nat} {x : Except Stop State}
    (hx : Yields [.overSubscribedHuffmanCode, .incompleteHuffmanCode] P x) :
    Yields [.overSubscribedHuffmanCode, .incompleteHuffmanCode] P (checkTable reject L maxb >>= fun _ => x) := by
  unfold Machine.checkTable
  split
  · next e h => exact .raise (buildDyn_mem h)
  · exact hx

/-! ### Every rule -/

/-- The errors a state's rule can raise: those listed for the state (60_exceptions.md rule R451), and that of the drop
in STORED_ALIGN, which the invariant excludes (`State.ReaderInv.alignToByte_eq`). -/
def ruleErrors : Fsm → List Err
  | .storedAlign => [.truncatedInput]
  | f => errorsOf f

theorem ruleOf_yields (f : Fsm) {s : State} (hs : s.Unfailed) : Yields (ruleErrors f) State.Unfailed (ruleOf f s) := by
  cases f
  case hdr =>
    refine .readBits (by omega) hs fun _ u hu => .readBits (by omega) hu fun t _ _ => .ite (.raise (by decide)) (.ok ?_)
    refine .of_fsm _ rfl ?_
    split
    · decide
    · split <;> decide
  case storedAlign => exact (Yields.dropBits _ hs).bind fun u _ => .ok (.of_fsm .storedLen rfl)
  case storedLen => exact .readBits (by omega) hs fun _ _ _ => .ok (.of_fsm .storedNlen rfl)
  case storedNlen =>
    exact .readBits (by omega) hs fun _ _ _ => .ite (.raise (by decide)) <|
      .ite (.ok (State.blockEnd_unfailed _)) (.ok (.of_fsm .storedCopy rfl))
  case storedCopy =>
    refine .readBits (by omega) hs fun _ _ hu => (Yields.produce hu).bind fun p hp => .ok ?_
    split
    · exact State.blockEnd_unfailed _
    · exact hp
  case dynHdr =>
    exact .readBits (by omega) hs fun _ _ hu => .readBits (by omega) hu fun _ _ hu =>
      .readBits (by omega) hu fun _ _ _ => .ite (.raise (by decide)) (.ok (.of_fsm .dynCllen rfl))
  case dynCllen =>
    exact .readBits (by omega) hs fun _ _ _ => .ite (.fault _) (.ok (.of_fsm_ite .dynClbuild .dynCllen rfl))
  case dynLens =>
    refine .readCode (by omega) hs fun _ u hu => .ite .putLengths <|
      .ite (.ite (.raise (by decide)) ?_) (.ite ?_ ?_)
    all_goals exact .readBits (by omega) hu fun _ _ _ => .putLengths
  case sym =>
    exact .readCode (by omega) hs fun _ _ hu => .ite (.produce hu) <| .ite (.ok (State.blockEnd_unfailed _)) <|
      .ite (.ok (.of_fsm .lenExtra rfl)) (.raise (by decide))
  case lenExtra =>
    exact .ite (.readBits (Nat.le_trans (lextOf_le _) (by omega)) hs fun _ _ _ => .ok (.of_fsm .distSym rfl))
      (.fault _)
  case distSym =>
    exact .readCode (by omega) hs fun _ _ _ => .ite (.raise (by decide)) (.ok (.of_fsm .distExtra rfl))
  case distExtra =>
    have hext : dextOf s.dsym.toNat ≤ 16 := by
      have := s.dsym.isLt
      unfold dextOf
      omega
    exact .ite (.readBits hext hs fun _ _ _ => .ite (.raise (by decide)) (.ok (.of_fsm .copy rfl))) (.fault _)
  case fixedSetup => exact .ok (.of_fsm .sym rfl)
  case dynClbuild => exact .checkTable (.ok (.of_fsm .dynLens rfl))
  case dynBuild => exact .ite (.fault _) (.checkTable (.checkTable (.ok (.of_fsm .sym rfl))))
  case copy => exact (Yields.produce hs).bind fun _ _ => .ok (.of_fsm_ite .sym .copy rfl)
  case idle => exact .ok hs
  case done => exact .ok hs
  case error => exact .ok hs

/-! ### The step -/

/-- A step that enters ERROR is a raise of its rule (60_exceptions.md rule R452). -/
theorem raise_of_finish_enters_error {f : Fsm} {s t : State} (hs : s.Unfailed) (h : finish s (ruleOf f s) = .next t)
    (ht : t.fsm = Fsm.error.code) : ∃ e ∈ ruleErrors f, ruleOf f s = .error (.raise e) ∧ t = s.raise e := by
  have hyields := ruleOf_yields f hs
  generalize ruleOf f s = x at h hyields
  cases hyields with
  | ok hok =>
    cases h
    exact absurd ht hok
  | raise he =>
    cases h
    exact ⟨_, he, rfl, rfl⟩
  | hold =>
    cases h
    exact absurd ht hs
  | fault => cases h

/-- STATUS after error entry (10_state.md rule R60). -/
theorem State.raise_status (s : State) (e : Err) :
    (s.raise e).status = 4 ||| (e.code.setWidth 32 <<< 3) ||| (18 <<< 6) := by
  simp [State.status, State.busy, State.atRest, Fsm.code]

/-- Settles O38: the step is a raise of its state's rule. -/
theorem raiseWritesErrorEntryAlone : Obligations.RaiseWritesErrorEntryAlone := by
  intro s t hown hs h ht
  obtain ⟨-, hfault⟩ | ⟨f, -, hstep⟩ := step_own_cases hown
  · cases hfault.symm.trans h
  · obtain ⟨e, -, -, rfl⟩ := raise_of_finish_enters_error hs (hstep.symm.trans h) ht
    exact ⟨e, rfl, s.raise_status e⟩

/-- From an invariant state the rule raises only what R451 lists: AlignToByte is the one read that cannot fail. -/
theorem State.Inv.mem_errorsOf {f : Fsm} {s : State} {e : Err} (hs : s.Inv) (h : ruleOf f s = .error (.raise e))
    (he : e ∈ ruleErrors f) : e ∈ errorsOf f := by
  cases f
  case storedAlign =>
    rw [ruleOf, hs.reader.alignToByte_eq] at h
    cases h
  all_goals exact he

/-- Settles O39: the raises of each rule, less the one that the invariant excludes. -/
theorem stepRaisesOnlyItsErrors : Obligations.StepRaisesOnlyItsErrors := by
  intro s t f hs hown hf herror h ht
  rw [step_eq_rule hown hf] at h
  obtain ⟨e, he, hraise, rfl⟩ := raise_of_finish_enters_error (.of_fsm f hf herror) h ht
  exact ⟨e, hs.mem_errorsOf hraise he, rfl⟩

end Sys2Proof.Machine

namespace Sys2Proof.Machine

/-! # The state after reset

The base case of the invariant (70_reset_and_hazards.md rules R490, R491): nothing is read, nothing is produced, and the
memories `WIN` and `SRC` are empty. -/

/-- The parameters a core is built with lie in the ranges of 00_scope.md rule R12. -/
theorem State.reset_cfg_legal : State.reset.cfg.legal := by
  unfold Config.legal
  decide

/-- With an empty history there is no byte of the window to compare. -/
theorem State.reset_windowInv : State.reset.WindowInv where
  win_wf := Memory.reset_win_wf
  win_below := rfl
  wpos_eq := rfl
  histLen_eq := rfl
  outCount_eq := (Nat.zero_mod _).symm
  history := fun k hk => absurd hk (Nat.not_lt_zero k)

/-- Settles O31: the bit reader and the output are empty, and the core stands in IDLE with no error. -/
theorem invHoldsAtReset : Obligations.InvHoldsAtReset where
  config := State.reset_cfg_legal
  reader := .of_empty rfl (Nat.two_pow_pos _)
  window := State.reset_windowInv
  src_wf := Memory.reset_src_wf
  btype_ne := by decide
  error_code := by decide
  state := ⟨.idle, rfl, trivial⟩

end Sys2Proof.Machine
